-- ==== Sys2Proof/Word.lean ====
section
/-! DEFINITION. The word types. A buffer byte is 8 bits (10_state.md R21); a word of the frame header is 64 bits
(00_scope.md R6, `WORD_BITS`); a component of a sample is 16 bits (`COMP_BITS`). -/

namespace Sys2Proof

/-- One byte of the input buffer (R21). -/
abbrev Byte := BitVec 8

/-- One word of the frame header (R6). -/
abbrev FrameWord := BitVec 64

/-- The real or the imaginary part of a sample (R6, R34): unsigned, 16 bits. -/
abbrev Component := BitVec 16

/-- An operation written down as bytes (Decode.lean). -/
abbrev ControlWord := List Byte

end Sys2Proof
end

