-- ==== Sys2Proof/Syntax.lean ====
section
/-! DEFINITION. The operations of the extractor, one constructor per row of spec/opcode_table.json
(30_encoding.md R102, 57 operations, 90_conflicts.md C9), in the table's order. An operation takes the
place an instruction has in a processor (R80). The operands are those of R102: `READ n` and `RD_BE n` with
a byte count, `FH.RDW k` with a word number 0 to 7. The operands `B` and `G` of the four IPv4 field
operations of R176, R177, R181, R182 are values of the running stage, not part of the operation's name:
they are held in State (Machine/Operands.lean). -/

namespace Sys2Proof

/-- The 57 operations of 30_encoding.md R102. -/
inductive Instr where
  /-- `CUR.INIT` (40_cursor.md R122). -/
  | curInit
  /-- `READ n` (40_cursor.md R120). -/
  | read (n : Nat)
  /-- `RD_BE n` (40_cursor.md R121). -/
  | rdBe (n : Nat)
  /-- `FH.RDW k` (41_frame_header.md R131). -/
  | fhRdw (k : Fin 8)
  /-- `FH.W0.INVALID` (41_frame_header.md R132). -/
  | fhW0Invalid
  /-- `FH.W0.COMPLEX` (41_frame_header.md R133). -/
  | fhW0Complex
  /-- `FH.W0.EPOCH` (41_frame_header.md R134). -/
  | fhW0Epoch
  /-- `FH.W0.FRAME` (41_frame_header.md R135). -/
  | fhW0Frame
  /-- `FH.W1.VERSION` (41_frame_header.md R136). -/
  | fhW1Version
  /-- `FH.W1.BPS` (41_frame_header.md R137). -/
  | fhW1Bps
  /-- `FH.W1.ARRLEN` (41_frame_header.md R138). -/
  | fhW1Arrlen
  /-- `FH.W1.REFEP` (41_frame_header.md R139). -/
  | fhW1Refep
  /-- `FH.W1.SREP` (41_frame_header.md R140). -/
  | fhW1Srep
  /-- `FH.W1.UNASSIGNED` (41_frame_header.md R141). -/
  | fhW1Unassigned
  /-- `FH.W1.STATION` (41_frame_header.md R142). -/
  | fhW1Station
  /-- `FH.W2.BLKLEN` (41_frame_header.md R143). -/
  | fhW2Blklen
  /-- `FH.W2.CHPT` (41_frame_header.md R144). -/
  | fhW2Chpt
  /-- `FH.W2.FGROUP` (41_frame_header.md R145). -/
  | fhW2Fgroup
  /-- `FH.W2.BEAM` (41_frame_header.md R146). -/
  | fhW2Beam
  /-- `FH.W3.RSVD16` (41_frame_header.md R147). -/
  | fhW3Rsvd16
  /-- `FH.W3.PERIOD` (41_frame_header.md R148). -/
  | fhW3Period
  /-- `FH.W3.RSVD32` (41_frame_header.md R149). -/
  | fhW3Rsvd32
  /-- `FH.W4.IPP` (41_frame_header.md R150). -/
  | fhW4Ipp
  /-- `FH.W5.SYNC` (41_frame_header.md R151). -/
  | fhW5Sync
  /-- `FH.W5.RSVD32` (41_frame_header.md R152). -/
  | fhW5Rsvd32
  /-- `FH.W6.EDV` (41_frame_header.md R153). -/
  | fhW6Edv
  /-- `FH.W6.EUD` (41_frame_header.md R154). -/
  | fhW6Eud
  /-- `FH.W7.EUD` (41_frame_header.md R155). -/
  | fhW7Eud
  /-- `DEC.FHDR` (41_frame_header.md R130). -/
  | decFhdr
  /-- `ETH.DST` (42_encapsulation.md R172). -/
  | ethDst
  /-- `ETH.SRC` (42_encapsulation.md R173). -/
  | ethSrc
  /-- `ETH.LEN` (42_encapsulation.md R174). -/
  | ethLen
  /-- `DEC.ETH` (42_encapsulation.md R171). -/
  | decEth
  /-- `IP.VERSION` (42_encapsulation.md R176). -/
  | ipVersion
  /-- `IP.IHL` (42_encapsulation.md R177). -/
  | ipIhl
  /-- `IP.TOS` (42_encapsulation.md R178). -/
  | ipTos
  /-- `IP.TOTLEN` (42_encapsulation.md R179). -/
  | ipTotlen
  /-- `IP.ID` (42_encapsulation.md R180). -/
  | ipId
  /-- `IP.FLAGS` (42_encapsulation.md R181). -/
  | ipFlags
  /-- `IP.FRAG` (42_encapsulation.md R182). -/
  | ipFrag
  /-- `IP.TTL` (42_encapsulation.md R183). -/
  | ipTtl
  /-- `IP.PROTO` (42_encapsulation.md R184). -/
  | ipProto
  /-- `IP.CSUM` (42_encapsulation.md R185). -/
  | ipCsum
  /-- `IP.SRC` (42_encapsulation.md R186). -/
  | ipSrc
  /-- `IP.DST` (42_encapsulation.md R187). -/
  | ipDst
  /-- `DEC.IPV4` (42_encapsulation.md R175). -/
  | decIpv4
  /-- `UDP.SPORT` (42_encapsulation.md R189). -/
  | udpSport
  /-- `UDP.DPORT` (42_encapsulation.md R190). -/
  | udpDport
  /-- `UDP.LEN` (42_encapsulation.md R191). -/
  | udpLen
  /-- `UDP.CSUM` (42_encapsulation.md R192). -/
  | udpCsum
  /-- `DEC.UDP` (42_encapsulation.md R188). -/
  | decUdp
  /-- `DEC.ENCAP` (42_encapsulation.md R170). -/
  | decEncap
  /-- `SMP.RE` (43_payload.md R201). -/
  | smpRe
  /-- `SMP.IM` (43_payload.md R202). -/
  | smpIm
  /-- `DEC.PAYLOAD` (43_payload.md R200). -/
  | decPayload
  /-- `DECODE.BARE` (44_packet.md R211). -/
  | decodeBare
  /-- `DECODE.ENCAP` (44_packet.md R212). -/
  | decodeEncap
deriving DecidableEq, Repr

end Sys2Proof
end

