-- ==== Sys2Proof/WellFormed.lean ====
section
/-! DEFINITION. Which operations the encoding admits: every one. `READ n` takes any natural number (40_cursor.md R120), and
so does `RD_BE n`, which is `be(READ(n))` (R121, 30_encoding.md R103); that `n` is 1, 2 or 8 is said of "the reference
sequence" (R121), not of the operation. `FH.RDW k` has its range, `k = 0..7` (R131), in its type, `Fin 8`. So there is
no check left that a term could fail; bytes that encode no operation are the decoder's to refuse (Decode.lean). -/

namespace Sys2Proof

/-- The operand check of each operation (R102, R120, R121, R131): none of them restricts what its type admits. -/
def Instr.wellFormed : Instr → Bool
  | .curInit => true
  | .read _ => true
  | .rdBe _ => true
  | .fhRdw _ => true
  | .fhW0Invalid => true
  | .fhW0Complex => true
  | .fhW0Epoch => true
  | .fhW0Frame => true
  | .fhW1Version => true
  | .fhW1Bps => true
  | .fhW1Arrlen => true
  | .fhW1Refep => true
  | .fhW1Srep => true
  | .fhW1Unassigned => true
  | .fhW1Station => true
  | .fhW2Blklen => true
  | .fhW2Chpt => true
  | .fhW2Fgroup => true
  | .fhW2Beam => true
  | .fhW3Rsvd16 => true
  | .fhW3Period => true
  | .fhW3Rsvd32 => true
  | .fhW4Ipp => true
  | .fhW5Sync => true
  | .fhW5Rsvd32 => true
  | .fhW6Edv => true
  | .fhW6Eud => true
  | .fhW7Eud => true
  | .decFhdr => true
  | .ethDst => true
  | .ethSrc => true
  | .ethLen => true
  | .decEth => true
  | .ipVersion => true
  | .ipIhl => true
  | .ipTos => true
  | .ipTotlen => true
  | .ipId => true
  | .ipFlags => true
  | .ipFrag => true
  | .ipTtl => true
  | .ipProto => true
  | .ipCsum => true
  | .ipSrc => true
  | .ipDst => true
  | .decIpv4 => true
  | .udpSport => true
  | .udpDport => true
  | .udpLen => true
  | .udpCsum => true
  | .decUdp => true
  | .decEncap => true
  | .smpRe => true
  | .smpIm => true
  | .decPayload => true
  | .decodeBare => true
  | .decodeEncap => true

end Sys2Proof
end

