-- ==== Sys2Proof/Decode.lean ====
section
/-! DEFINITION. Control words: how the model writes an operation down as bytes, their decoder and their encoder.

The spec encodes only the two commands, by the value of `MODE` (44_packet.md R211 "Encoding: `MODE = 0`", R212
"Encoding: `MODE = 1`"); for the other 55 operations it gives no encoding at all (30_encoding.md R80: "A format has
no opcode bits and no fixed bits at all"; R104: `match_mask` `0x0`, "no bit is compared").
DESIGN CHOICE (unsafe, notes/assumptions/1.md): a control word is one operation byte and then its operand in base 256,
least significant byte first, absent bytes being 0. The operation byte is 0 for DECODE.BARE and 1 for DECODE.ENCAP
(the spec's own codes); the other 55 operations are numbered 2 to 56 in the order of the table of R102. No control word is
held in State: the extractor fetches and decodes none (R80, 20_memory.md R66). -/

namespace Sys2Proof

/-- Why a sequence of bytes is no control word. -/
inductive DecodeError where
  /-- No byte at all. -/
  | empty
  /-- The operation byte is 57 or more: no operation of R102. -/
  | undefinedOperation
  /-- A nonzero operand after an operation that takes none (R102). -/
  | unexpectedOperand
  /-- `FH.RDW k` with `k` above 7 (R131). -/
  | noSuchWord
deriving DecidableEq, Repr

/-- The number whose base 256 digits, least significant first, are the given bytes. -/
def leNat : List Byte → Nat
  | [] => 0
  | b :: bs => b.toNat + 256 * leNat bs

/-- The lowest `k` base 256 digits of `n`, least significant first. -/
def leBytes : Nat → Nat → List Byte
  | 0, _ => []
  | k + 1, n => BitVec.ofNat 8 n :: leBytes k (n / 256)

/-- The base 256 digits of an operand, least significant first, none for 0. -/
def operandBytes (n : Nat) : List Byte :=
  if n = 0 then [] else leBytes (n.log2 / 8 + 1) n

/-- The operation that takes no operand and has the given operation byte. -/
def plainOperation : Nat → Option Instr
  | 0 => some .decodeBare
  | 1 => some .decodeEncap
  | 2 => some .curInit
  | 6 => some .fhW0Invalid
  | 7 => some .fhW0Complex
  | 8 => some .fhW0Epoch
  | 9 => some .fhW0Frame
  | 10 => some .fhW1Version
  | 11 => some .fhW1Bps
  | 12 => some .fhW1Arrlen
  | 13 => some .fhW1Refep
  | 14 => some .fhW1Srep
  | 15 => some .fhW1Unassigned
  | 16 => some .fhW1Station
  | 17 => some .fhW2Blklen
  | 18 => some .fhW2Chpt
  | 19 => some .fhW2Fgroup
  | 20 => some .fhW2Beam
  | 21 => some .fhW3Rsvd16
  | 22 => some .fhW3Period
  | 23 => some .fhW3Rsvd32
  | 24 => some .fhW4Ipp
  | 25 => some .fhW5Sync
  | 26 => some .fhW5Rsvd32
  | 27 => some .fhW6Edv
  | 28 => some .fhW6Eud
  | 29 => some .fhW7Eud
  | 30 => some .decFhdr
  | 31 => some .ethDst
  | 32 => some .ethSrc
  | 33 => some .ethLen
  | 34 => some .decEth
  | 35 => some .ipVersion
  | 36 => some .ipIhl
  | 37 => some .ipTos
  | 38 => some .ipTotlen
  | 39 => some .ipId
  | 40 => some .ipFlags
  | 41 => some .ipFrag
  | 42 => some .ipTtl
  | 43 => some .ipProto
  | 44 => some .ipCsum
  | 45 => some .ipSrc
  | 46 => some .ipDst
  | 47 => some .decIpv4
  | 48 => some .udpSport
  | 49 => some .udpDport
  | 50 => some .udpLen
  | 51 => some .udpCsum
  | 52 => some .decUdp
  | 53 => some .decEncap
  | 54 => some .smpRe
  | 55 => some .smpIm
  | 56 => some .decPayload
  | _ => none

/-- Read a control word: the operation it encodes, or the name of what is wrong with it. -/
def decode : ControlWord → Except DecodeError Instr
  | [] => .error .empty
  | op :: rest =>
    let n := leNat rest
    if op = 3 then .ok (.read n)
    else if op = 4 then .ok (.rdBe n)
    else if op = 5 then (if h : n < 8 then .ok (.fhRdw ⟨n, h⟩) else .error .noSuchWord)
    else
      match plainOperation op.toNat with
      | none => .error .undefinedOperation
      | some i => if n = 0 then .ok i else .error .unexpectedOperand

/-- The operation byte of an operation. -/
def operationByte : Instr → Byte
  | .curInit => 2
  | .read _ => 3
  | .rdBe _ => 4
  | .fhRdw _ => 5
  | .fhW0Invalid => 6
  | .fhW0Complex => 7
  | .fhW0Epoch => 8
  | .fhW0Frame => 9
  | .fhW1Version => 10
  | .fhW1Bps => 11
  | .fhW1Arrlen => 12
  | .fhW1Refep => 13
  | .fhW1Srep => 14
  | .fhW1Unassigned => 15
  | .fhW1Station => 16
  | .fhW2Blklen => 17
  | .fhW2Chpt => 18
  | .fhW2Fgroup => 19
  | .fhW2Beam => 20
  | .fhW3Rsvd16 => 21
  | .fhW3Period => 22
  | .fhW3Rsvd32 => 23
  | .fhW4Ipp => 24
  | .fhW5Sync => 25
  | .fhW5Rsvd32 => 26
  | .fhW6Edv => 27
  | .fhW6Eud => 28
  | .fhW7Eud => 29
  | .decFhdr => 30
  | .ethDst => 31
  | .ethSrc => 32
  | .ethLen => 33
  | .decEth => 34
  | .ipVersion => 35
  | .ipIhl => 36
  | .ipTos => 37
  | .ipTotlen => 38
  | .ipId => 39
  | .ipFlags => 40
  | .ipFrag => 41
  | .ipTtl => 42
  | .ipProto => 43
  | .ipCsum => 44
  | .ipSrc => 45
  | .ipDst => 46
  | .decIpv4 => 47
  | .udpSport => 48
  | .udpDport => 49
  | .udpLen => 50
  | .udpCsum => 51
  | .decUdp => 52
  | .decEncap => 53
  | .smpRe => 54
  | .smpIm => 55
  | .decPayload => 56
  | .decodeBare => 0
  | .decodeEncap => 1

/-- The operand of an operation, 0 where it takes none. -/
def operandOf : Instr → Nat
  | .curInit => 0
  | .read n => n
  | .rdBe n => n
  | .fhRdw k => k.val
  | .fhW0Invalid => 0
  | .fhW0Complex => 0
  | .fhW0Epoch => 0
  | .fhW0Frame => 0
  | .fhW1Version => 0
  | .fhW1Bps => 0
  | .fhW1Arrlen => 0
  | .fhW1Refep => 0
  | .fhW1Srep => 0
  | .fhW1Unassigned => 0
  | .fhW1Station => 0
  | .fhW2Blklen => 0
  | .fhW2Chpt => 0
  | .fhW2Fgroup => 0
  | .fhW2Beam => 0
  | .fhW3Rsvd16 => 0
  | .fhW3Period => 0
  | .fhW3Rsvd32 => 0
  | .fhW4Ipp => 0
  | .fhW5Sync => 0
  | .fhW5Rsvd32 => 0
  | .fhW6Edv => 0
  | .fhW6Eud => 0
  | .fhW7Eud => 0
  | .decFhdr => 0
  | .ethDst => 0
  | .ethSrc => 0
  | .ethLen => 0
  | .decEth => 0
  | .ipVersion => 0
  | .ipIhl => 0
  | .ipTos => 0
  | .ipTotlen => 0
  | .ipId => 0
  | .ipFlags => 0
  | .ipFrag => 0
  | .ipTtl => 0
  | .ipProto => 0
  | .ipCsum => 0
  | .ipSrc => 0
  | .ipDst => 0
  | .decIpv4 => 0
  | .udpSport => 0
  | .udpDport => 0
  | .udpLen => 0
  | .udpCsum => 0
  | .decUdp => 0
  | .decEncap => 0
  | .smpRe => 0
  | .smpIm => 0
  | .decPayload => 0
  | .decodeBare => 0
  | .decodeEncap => 0

/-- The control word of an operation. -/
def encode (i : Instr) : ControlWord :=
  operationByte i :: operandBytes (operandOf i)

/-- How many bytes `decodeTableWord` lays out at least: one operation byte and eight operand bytes. -/
def minControlBytes : Nat := 9

/-- The bytes of a word numbered as spec/opcode_table.json numbers bits: byte `i` is bits `8*i+7..8*i`; every bit from
`nbits` on is 0. -/
def tableWordBytes (nbits w : Nat) : ControlWord :=
  leBytes (max ((nbits + 7) / 8) minControlBytes) (w % 2 ^ nbits)

/-- The operation this decoder reads from a word of the table. -/
def decodeTableWord (nbits w : Nat) : Option Instr :=
  match decode (tableWordBytes nbits w) with
  | .ok i => some i
  | .error _ => none

end Sys2Proof
end

