-- ==== Sys2Proof/Config.lean ====
section
/-! DEFINITION. What is fixed when an instance is built. 00_scope.md R6: the constants the source gives. R7: the
parameters it names and does not value.

The behaviour switches of R9 are not parameters: every extraction masks (`MASK_ALL`), no value is checked (`VALIDATE`
false) and no flat view exists (`FLAT_VIEW` false); the meanings are written so.
`MAX_LEN` is unbounded, as the spec's reference model has it (R7, 92_eei_decisions.md D4; notes/assumptions/9.md). -/

namespace Sys2Proof.Config

/-- Blocks of the sample array (R7 `N_BLK`, OPEN). No body: nothing can be proved of its value (log 5). -/
opaque nBlk : Nat

/-- Channels per block (R7 `N_CH`, OPEN). No body (log 5). -/
opaque nCh : Nat

/-- Polarizations (R7 `N_POL`, OPEN). No body (log 5). -/
opaque nPol : Nat

/-- Bytes of the Ethernet header (R6 `ETH_BYTES`). -/
def ethBytes : Nat := 14

/-- Bytes of the IPv4 header, whatever its header-length field says (R6 `IP_BYTES`). -/
def ipBytes : Nat := 20

/-- Bytes of the UDP header (R6 `UDP_BYTES`). -/
def udpBytes : Nat := 8

/-- Bytes of the three headers together (R6 `ENCAP_BYTES`). -/
def encapBytes : Nat := ethBytes + ipBytes + udpBytes

/-- Words of the frame header (R6 `FH_WORDS`). -/
def fhWords : Nat := 8

/-- Bytes of the frame header (R6 `FH_BYTES`). -/
def fhBytes : Nat := 64

/-- Bytes of one complex sample (R6 `SAMPLE_BYTES`). -/
def sampleBytes : Nat := 4

end Sys2Proof.Config
end

