-- ==== Sys2Proof/Machine/State.lean ====
section
/-! DEFINITION. The state of one extractor (10_state.md R20), the reasons a run can stop, and the state after reset
(R38, 70_reset_and_hazards.md R260).

A register without value. R28: the result registers "are meaningful only while `STATUS = OK`"; otherwise "a model must
give them no value (an absent option, not zeros)"; R210 and R237 write "all result registers <- no value" as part of an
operation's effect; R38 says the same of `W[0..7]` at reset. So `none` in these fields is the spec's own state, not a
missing reset value (notes/assumptions/3.md). -/

namespace Sys2Proof.Machine

/-- The input buffer's bytes: address and byte, addresses strictly rising, no entry equal to `Memory.fill`
(Machine/Ops.lean `Memory.wf`). -/
abbrev Memory := List Host.Cell

/-- What an unlisted address below `LEN` reads as. R21 gives every byte below `LEN` a value, the host's: this only fixes
which value is not written down. DESIGN CHOICE (notes/assumptions/2.md). -/
def Memory.fill : Byte := 0

/-- The input `MODE` (R22): whether the Ethernet, IPv4 and UDP headers precede the frame header. -/
inductive Mode where
  /-- `BARE = 0`: the buffer begins with the frame header. -/
  | bare
  /-- `ENCAP = 1`: the buffer begins with the Ethernet, IPv4 and UDP headers. -/
  | encap
deriving DecidableEq, Repr

/-- The status register (R27). -/
inductive Status where
  /-- `0b00`: no transaction has completed since reset or the last start. -/
  | idle
  /-- `0b01`: the last transaction completed. -/
  | ok
  /-- `0b10`: the last transaction failed with TruncatedBufferError. -/
  | errTruncated
  /-- `0b11`: reserved for MalformedFieldError, never produced (R233). -/
  | errMalformed
deriving DecidableEq, Repr

/-- The extents of the sample array (R7, R23): fixed for an instance of the hardware. -/
structure Geometry where
  /-- `N_BLK`. -/
  nBlk : Nat
  /-- `N_CH`. -/
  nCh : Nat
  /-- `N_POL`. -/
  nPol : Nat
deriving DecidableEq, Repr

/-- The names of the scalar result registers (R14, R28 to R32): a register is named by header or word and field, so the
two `reserved32` and the two `ext_user_data` are four names (R33). -/
inductive Reg where
  /-- `ENCAP_V`, 1 bit (10_state.md R28). -/
  | encapV
  /-- `eth.dst`, 48 bits (10_state.md R29). -/
  | ethDst
  /-- `eth.src`, 48 bits (10_state.md R29). -/
  | ethSrc
  /-- `eth.len`, 16 bits (10_state.md R29). -/
  | ethLen
  /-- `ip.version`, 4 bits (10_state.md R30). -/
  | ipVersion
  /-- `ip.ihl`, 4 bits (10_state.md R30). -/
  | ipIhl
  /-- `ip.tos`, 8 bits (10_state.md R30). -/
  | ipTos
  /-- `ip.total_length`, 16 bits (10_state.md R30). -/
  | ipTotalLength
  /-- `ip.identification`, 16 bits (10_state.md R30). -/
  | ipIdentification
  /-- `ip.flags`, 3 bits (10_state.md R30). -/
  | ipFlags
  /-- `ip.frag_offset`, 13 bits (10_state.md R30). -/
  | ipFragOffset
  /-- `ip.ttl`, 8 bits (10_state.md R30). -/
  | ipTtl
  /-- `ip.protocol`, 8 bits (10_state.md R30). -/
  | ipProtocol
  /-- `ip.checksum`, 16 bits (10_state.md R30). -/
  | ipChecksum
  /-- `ip.src`, 32 bits (10_state.md R30). -/
  | ipSrc
  /-- `ip.dst`, 32 bits (10_state.md R30). -/
  | ipDst
  /-- `udp.src_port`, 16 bits (10_state.md R31). -/
  | udpSrcPort
  /-- `udp.dst_port`, 16 bits (10_state.md R31). -/
  | udpDstPort
  /-- `udp.length`, 16 bits (10_state.md R31). -/
  | udpLength
  /-- `udp.checksum`, 16 bits (10_state.md R31). -/
  | udpChecksum
  /-- `w0.invalid`, 1 bit (10_state.md R32). -/
  | w0Invalid
  /-- `w0.complex`, 1 bit (10_state.md R32). -/
  | w0Complex
  /-- `w0.epoch_start_sec`, 30 bits (10_state.md R32). -/
  | w0EpochStartSec
  /-- `w0.frame_number`, 32 bits (10_state.md R32). -/
  | w0FrameNumber
  /-- `w1.version`, 3 bits (10_state.md R32). -/
  | w1Version
  /-- `w1.bits_per_sample`, 5 bits (10_state.md R32). -/
  | w1BitsPerSample
  /-- `w1.array_length`, 24 bits (10_state.md R32). -/
  | w1ArrayLength
  /-- `w1.ref_epoch_period`, 6 bits (10_state.md R32). -/
  | w1RefEpochPeriod
  /-- `w1.sample_representation`, 4 bits (10_state.md R32). -/
  | w1SampleRepresentation
  /-- `w1.unassigned`, 6 bits (10_state.md R32). -/
  | w1Unassigned
  /-- `w1.station_id`, 16 bits (10_state.md R32). -/
  | w1StationId
  /-- `w2.block_length`, 16 bits (10_state.md R32). -/
  | w2BlockLength
  /-- `w2.channels_per_thread`, 16 bits (10_state.md R32). -/
  | w2ChannelsPerThread
  /-- `w2.freq_group`, 16 bits (10_state.md R32). -/
  | w2FreqGroup
  /-- `w2.beam_id`, 16 bits (10_state.md R32). -/
  | w2BeamId
  /-- `w3.reserved16`, 16 bits (10_state.md R32). -/
  | w3Reserved16
  /-- `w3.period`, 16 bits (10_state.md R32). -/
  | w3Period
  /-- `w3.reserved32`, 32 bits (10_state.md R32). -/
  | w3Reserved32
  /-- `w4.intervals_per_period`, 64 bits (10_state.md R32). -/
  | w4IntervalsPerPeriod
  /-- `w5.sync_seq`, 32 bits (10_state.md R32). -/
  | w5SyncSeq
  /-- `w5.reserved32`, 32 bits (10_state.md R32). -/
  | w5Reserved32
  /-- `w6.ext_data_version`, 8 bits (10_state.md R32). -/
  | w6ExtDataVersion
  /-- `w6.ext_user_data`, 56 bits (10_state.md R32). -/
  | w6ExtUserData
  /-- `w7.ext_user_data`, 64 bits (10_state.md R32). -/
  | w7ExtUserData
deriving DecidableEq, Repr

/-- The scalar result registers (R28 to R32), each with its width; `none` is "no value" (R28). -/
structure RegFile where
  /-- `ENCAP_V` (10_state.md R28). -/
  encapV : Option (BitVec 1)
  /-- `eth.dst` (10_state.md R29). -/
  ethDst : Option (BitVec 48)
  /-- `eth.src` (10_state.md R29). -/
  ethSrc : Option (BitVec 48)
  /-- `eth.len` (10_state.md R29). -/
  ethLen : Option (BitVec 16)
  /-- `ip.version` (10_state.md R30). -/
  ipVersion : Option (BitVec 4)
  /-- `ip.ihl` (10_state.md R30). -/
  ipIhl : Option (BitVec 4)
  /-- `ip.tos` (10_state.md R30). -/
  ipTos : Option (BitVec 8)
  /-- `ip.total_length` (10_state.md R30). -/
  ipTotalLength : Option (BitVec 16)
  /-- `ip.identification` (10_state.md R30). -/
  ipIdentification : Option (BitVec 16)
  /-- `ip.flags` (10_state.md R30). -/
  ipFlags : Option (BitVec 3)
  /-- `ip.frag_offset` (10_state.md R30). -/
  ipFragOffset : Option (BitVec 13)
  /-- `ip.ttl` (10_state.md R30). -/
  ipTtl : Option (BitVec 8)
  /-- `ip.protocol` (10_state.md R30). -/
  ipProtocol : Option (BitVec 8)
  /-- `ip.checksum` (10_state.md R30). -/
  ipChecksum : Option (BitVec 16)
  /-- `ip.src` (10_state.md R30). -/
  ipSrc : Option (BitVec 32)
  /-- `ip.dst` (10_state.md R30). -/
  ipDst : Option (BitVec 32)
  /-- `udp.src_port` (10_state.md R31). -/
  udpSrcPort : Option (BitVec 16)
  /-- `udp.dst_port` (10_state.md R31). -/
  udpDstPort : Option (BitVec 16)
  /-- `udp.length` (10_state.md R31). -/
  udpLength : Option (BitVec 16)
  /-- `udp.checksum` (10_state.md R31). -/
  udpChecksum : Option (BitVec 16)
  /-- `w0.invalid` (10_state.md R32). -/
  w0Invalid : Option (BitVec 1)
  /-- `w0.complex` (10_state.md R32). -/
  w0Complex : Option (BitVec 1)
  /-- `w0.epoch_start_sec` (10_state.md R32). -/
  w0EpochStartSec : Option (BitVec 30)
  /-- `w0.frame_number` (10_state.md R32). -/
  w0FrameNumber : Option (BitVec 32)
  /-- `w1.version` (10_state.md R32). -/
  w1Version : Option (BitVec 3)
  /-- `w1.bits_per_sample` (10_state.md R32). -/
  w1BitsPerSample : Option (BitVec 5)
  /-- `w1.array_length` (10_state.md R32). -/
  w1ArrayLength : Option (BitVec 24)
  /-- `w1.ref_epoch_period` (10_state.md R32). -/
  w1RefEpochPeriod : Option (BitVec 6)
  /-- `w1.sample_representation` (10_state.md R32). -/
  w1SampleRepresentation : Option (BitVec 4)
  /-- `w1.unassigned` (10_state.md R32). -/
  w1Unassigned : Option (BitVec 6)
  /-- `w1.station_id` (10_state.md R32). -/
  w1StationId : Option (BitVec 16)
  /-- `w2.block_length` (10_state.md R32). -/
  w2BlockLength : Option (BitVec 16)
  /-- `w2.channels_per_thread` (10_state.md R32). -/
  w2ChannelsPerThread : Option (BitVec 16)
  /-- `w2.freq_group` (10_state.md R32). -/
  w2FreqGroup : Option (BitVec 16)
  /-- `w2.beam_id` (10_state.md R32). -/
  w2BeamId : Option (BitVec 16)
  /-- `w3.reserved16` (10_state.md R32). -/
  w3Reserved16 : Option (BitVec 16)
  /-- `w3.period` (10_state.md R32). -/
  w3Period : Option (BitVec 16)
  /-- `w3.reserved32` (10_state.md R32). -/
  w3Reserved32 : Option (BitVec 32)
  /-- `w4.intervals_per_period` (10_state.md R32). -/
  w4IntervalsPerPeriod : Option (BitVec 64)
  /-- `w5.sync_seq` (10_state.md R32). -/
  w5SyncSeq : Option (BitVec 32)
  /-- `w5.reserved32` (10_state.md R32). -/
  w5Reserved32 : Option (BitVec 32)
  /-- `w6.ext_data_version` (10_state.md R32). -/
  w6ExtDataVersion : Option (BitVec 8)
  /-- `w6.ext_user_data` (10_state.md R32). -/
  w6ExtUserData : Option (BitVec 56)
  /-- `w7.ext_user_data` (10_state.md R32). -/
  w7ExtUserData : Option (BitVec 64)
deriving DecidableEq, Repr

/-- Every result register without value (R28, R38, R210, R237). -/
def RegFile.absent : RegFile :=
  ⟨none, none, none, none, none, none, none, none, none, none, none, none, none, none, none, none, none, none, none, none, none, none, none, none, none, none, none, none, none, none, none, none, none, none, none, none, none, none, none, none, none, none, none, none⟩

/-- One element of the sample array (R34): the pair (re, im); a part without value is one no read has delivered in this
transaction. -/
structure Sample where
  /-- The real part. -/
  re : Option Component
  /-- The imaginary part. -/
  im : Option Component
deriving DecidableEq, Repr

/-- The sample array `S[b][c][p]` (R34), its extents fixed by the geometry (43_payload.md R207). -/
abbrev SampleArray := List (List (List Sample))

/-- The array of the given extents with no element holding a value. -/
def SampleArray.absent (g : Geometry) : SampleArray :=
  List.replicate g.nBlk (List.replicate g.nCh (List.replicate g.nPol ⟨none, none⟩))

/-- The loop counters of the payload stage (R200, 30_encoding.md R97 (f)): the coordinate of the current sample. -/
structure Coord where
  /-- Block. -/
  b : Nat
  /-- Channel. -/
  c : Nat
  /-- Polarization. -/
  p : Nat
deriving DecidableEq, Repr

/-- An unsigned value read big-endian from `nbytes` bytes (40_cursor.md R121: "an unsigned value of 8*n bits"). -/
structure BeInt where
  /-- How many bytes it was read from. -/
  nbytes : Nat
  /-- Its value, below `256 ^ nbytes`. -/
  value : Nat
deriving DecidableEq, Repr

/-- Why the host's view of the machine cannot answer. No operation and no step raises one of these. -/
inductive Fault where
  /-- The host reads a result that has no value: outside `STATUS = OK`, or an encapsulation register after a BARE
  transaction (R28, R38 "reading faults", R267). Raised by `State.hostRead` and `State.hostSample`. Safe. -/
  | noValue
  /-- The host names a sample outside the extents (R34: "an index outside the extents is not an element"). Raised by
  `State.hostSample`. Safe. -/
  | noSuchSample
  /-- An address at or above `LEN`, which does not exist (20_memory.md R50). Raised by `State.readByte`. Safe. -/
  | outsideBuffer
deriving DecidableEq, Repr

/-- Why a step has no meaning. -/
inductive Refusal where
  /-- An operation without a meaning in this model, by its mnemonic. Raised by no arm. Safe. -/
  | notModelled (mnemonic : String)
  /-- Start while a transaction is running: "not a permitted host move" (R267, 93_implementation_defined.md U16). Raised by
  `step`, `State.hostStart` and `State.hostPresent`. Safe. -/
  | startDuringRun
deriving DecidableEq, Repr

/-- The whole state of one extractor (R20). The last five fields are the model's own: what the spec's pseudocode and
host protocol imply without giving it a register (notes/assumptions/6.md, 7.md, 8.md). -/
structure State where
  /-- `BUF` (R21): the bytes of the input buffer, owned by the host, never written by the extractor (R67). -/
  mem : Memory
  /-- `LEN` (R21). -/
  len : Nat
  /-- `MODE` (R22). -/
  mode : Mode
  /-- `N_BLK`, `N_CH`, `N_POL` (R23). -/
  geom : Geometry
  /-- `OFF` (R24). -/
  off : Nat
  /-- `STATUS` (R27). -/
  status : Status
  /-- `ENCAP_V`, `eth.*`, `ip.*`, `udp.*`, `w0.*` to `w7.*` (R28 to R32). -/
  f : RegFile
  /-- `S[b][c][p]` (R34). -/
  samples : SampleArray
  /-- `W[0..7]` (R35). -/
  w : Vector (Option FrameWord) 8
  /-- The bytes the last `READ` returned (40_cursor.md R120). -/
  retBytes : Option (List Byte)
  /-- The value the last `RD_BE` returned (R121): `B` and `G` of 42_encapsulation.md R175. -/
  rdbe : Option BeInt
  /-- The payload loop counters (R200). -/
  coord : Coord
  /-- The host's start request (44_packet.md R215 item 1). -/
  start : Bool
  /-- The operations of the running transaction still to run, the next one first; none when no run is in progress
  (00_scope.md R8, 20_memory.md R66, 44_packet.md R222). They are operations, not codes of operations: there is no illegal
  one (30_encoding.md R80, 60_exceptions.md R230). -/
  seq : List Instr
deriving DecidableEq, Repr

/-- The geometry of this instance of the hardware: "their build-time values" (R38, R23). -/
def Geometry.built : Geometry := ⟨Config.nBlk, Config.nCh, Config.nPol⟩

/-- The state after reset (R38, R260): `STATUS = IDLE`, `OFF = 0`, no result and no word holds a value, the geometry is
that of the build. `BUF`, `LEN` and `MODE` are the host's: no byte, length 0 and BARE stand until it supplies them
(DESIGN CHOICE, notes/assumptions/4.md). -/
def State.reset : State where
  mem := []
  len := 0
  mode := .bare
  geom := Geometry.built
  off := 0
  status := .idle
  f := RegFile.absent
  samples := SampleArray.absent Geometry.built
  w := Vector.replicate 8 none
  retBytes := none
  rdbe := none
  coord := ⟨0, 0, 0⟩
  start := false
  seq := []

end Sys2Proof.Machine
end

