-- ==== Sys2Proof/Machine/Registers.lean ====
section
/-! DEFINITION. Reading and writing the scalar result registers by name: the spec's `F[name]` and `F[name] <- v`
(00_scope.md R13), the only path to `RegFile`. -/

namespace Sys2Proof.Machine

/-- The width of a result register in bits (10_state.md R28 to R32). -/
@[reducible] def Reg.width : Reg → Nat
  | .encapV => 1
  | .ethDst => 48
  | .ethSrc => 48
  | .ethLen => 16
  | .ipVersion => 4
  | .ipIhl => 4
  | .ipTos => 8
  | .ipTotalLength => 16
  | .ipIdentification => 16
  | .ipFlags => 3
  | .ipFragOffset => 13
  | .ipTtl => 8
  | .ipProtocol => 8
  | .ipChecksum => 16
  | .ipSrc => 32
  | .ipDst => 32
  | .udpSrcPort => 16
  | .udpDstPort => 16
  | .udpLength => 16
  | .udpChecksum => 16
  | .w0Invalid => 1
  | .w0Complex => 1
  | .w0EpochStartSec => 30
  | .w0FrameNumber => 32
  | .w1Version => 3
  | .w1BitsPerSample => 5
  | .w1ArrayLength => 24
  | .w1RefEpochPeriod => 6
  | .w1SampleRepresentation => 4
  | .w1Unassigned => 6
  | .w1StationId => 16
  | .w2BlockLength => 16
  | .w2ChannelsPerThread => 16
  | .w2FreqGroup => 16
  | .w2BeamId => 16
  | .w3Reserved16 => 16
  | .w3Period => 16
  | .w3Reserved32 => 32
  | .w4IntervalsPerPeriod => 64
  | .w5SyncSeq => 32
  | .w5Reserved32 => 32
  | .w6ExtDataVersion => 8
  | .w6ExtUserData => 56
  | .w7ExtUserData => 64

/-- `F[name]`: the register's value, `none` where it has none (R28). -/
def RegFile.get (f : RegFile) : (r : Reg) → Option (BitVec r.width)
  | .encapV => f.encapV
  | .ethDst => f.ethDst
  | .ethSrc => f.ethSrc
  | .ethLen => f.ethLen
  | .ipVersion => f.ipVersion
  | .ipIhl => f.ipIhl
  | .ipTos => f.ipTos
  | .ipTotalLength => f.ipTotalLength
  | .ipIdentification => f.ipIdentification
  | .ipFlags => f.ipFlags
  | .ipFragOffset => f.ipFragOffset
  | .ipTtl => f.ipTtl
  | .ipProtocol => f.ipProtocol
  | .ipChecksum => f.ipChecksum
  | .ipSrc => f.ipSrc
  | .ipDst => f.ipDst
  | .udpSrcPort => f.udpSrcPort
  | .udpDstPort => f.udpDstPort
  | .udpLength => f.udpLength
  | .udpChecksum => f.udpChecksum
  | .w0Invalid => f.w0Invalid
  | .w0Complex => f.w0Complex
  | .w0EpochStartSec => f.w0EpochStartSec
  | .w0FrameNumber => f.w0FrameNumber
  | .w1Version => f.w1Version
  | .w1BitsPerSample => f.w1BitsPerSample
  | .w1ArrayLength => f.w1ArrayLength
  | .w1RefEpochPeriod => f.w1RefEpochPeriod
  | .w1SampleRepresentation => f.w1SampleRepresentation
  | .w1Unassigned => f.w1Unassigned
  | .w1StationId => f.w1StationId
  | .w2BlockLength => f.w2BlockLength
  | .w2ChannelsPerThread => f.w2ChannelsPerThread
  | .w2FreqGroup => f.w2FreqGroup
  | .w2BeamId => f.w2BeamId
  | .w3Reserved16 => f.w3Reserved16
  | .w3Period => f.w3Period
  | .w3Reserved32 => f.w3Reserved32
  | .w4IntervalsPerPeriod => f.w4IntervalsPerPeriod
  | .w5SyncSeq => f.w5SyncSeq
  | .w5Reserved32 => f.w5Reserved32
  | .w6ExtDataVersion => f.w6ExtDataVersion
  | .w6ExtUserData => f.w6ExtUserData
  | .w7ExtUserData => f.w7ExtUserData

/-- `F[name] <- v`; `none` writes "no value". -/
def RegFile.put (f : RegFile) : (r : Reg) → Option (BitVec r.width) → RegFile
  | .encapV, v => { f with encapV := v }
  | .ethDst, v => { f with ethDst := v }
  | .ethSrc, v => { f with ethSrc := v }
  | .ethLen, v => { f with ethLen := v }
  | .ipVersion, v => { f with ipVersion := v }
  | .ipIhl, v => { f with ipIhl := v }
  | .ipTos, v => { f with ipTos := v }
  | .ipTotalLength, v => { f with ipTotalLength := v }
  | .ipIdentification, v => { f with ipIdentification := v }
  | .ipFlags, v => { f with ipFlags := v }
  | .ipFragOffset, v => { f with ipFragOffset := v }
  | .ipTtl, v => { f with ipTtl := v }
  | .ipProtocol, v => { f with ipProtocol := v }
  | .ipChecksum, v => { f with ipChecksum := v }
  | .ipSrc, v => { f with ipSrc := v }
  | .ipDst, v => { f with ipDst := v }
  | .udpSrcPort, v => { f with udpSrcPort := v }
  | .udpDstPort, v => { f with udpDstPort := v }
  | .udpLength, v => { f with udpLength := v }
  | .udpChecksum, v => { f with udpChecksum := v }
  | .w0Invalid, v => { f with w0Invalid := v }
  | .w0Complex, v => { f with w0Complex := v }
  | .w0EpochStartSec, v => { f with w0EpochStartSec := v }
  | .w0FrameNumber, v => { f with w0FrameNumber := v }
  | .w1Version, v => { f with w1Version := v }
  | .w1BitsPerSample, v => { f with w1BitsPerSample := v }
  | .w1ArrayLength, v => { f with w1ArrayLength := v }
  | .w1RefEpochPeriod, v => { f with w1RefEpochPeriod := v }
  | .w1SampleRepresentation, v => { f with w1SampleRepresentation := v }
  | .w1Unassigned, v => { f with w1Unassigned := v }
  | .w1StationId, v => { f with w1StationId := v }
  | .w2BlockLength, v => { f with w2BlockLength := v }
  | .w2ChannelsPerThread, v => { f with w2ChannelsPerThread := v }
  | .w2FreqGroup, v => { f with w2FreqGroup := v }
  | .w2BeamId, v => { f with w2BeamId := v }
  | .w3Reserved16, v => { f with w3Reserved16 := v }
  | .w3Period, v => { f with w3Period := v }
  | .w3Reserved32, v => { f with w3Reserved32 := v }
  | .w4IntervalsPerPeriod, v => { f with w4IntervalsPerPeriod := v }
  | .w5SyncSeq, v => { f with w5SyncSeq := v }
  | .w5Reserved32, v => { f with w5Reserved32 := v }
  | .w6ExtDataVersion, v => { f with w6ExtDataVersion := v }
  | .w6ExtUserData, v => { f with w6ExtUserData := v }
  | .w7ExtUserData, v => { f with w7ExtUserData := v }

/-- Whether a register belongs to the Ethernet, IPv4 and UDP headers (R29 to R31). -/
def Reg.isEncap : Reg → Bool
  | .encapV => false
  | .ethDst => true
  | .ethSrc => true
  | .ethLen => true
  | .ipVersion => true
  | .ipIhl => true
  | .ipTos => true
  | .ipTotalLength => true
  | .ipIdentification => true
  | .ipFlags => true
  | .ipFragOffset => true
  | .ipTtl => true
  | .ipProtocol => true
  | .ipChecksum => true
  | .ipSrc => true
  | .ipDst => true
  | .udpSrcPort => true
  | .udpDstPort => true
  | .udpLength => true
  | .udpChecksum => true
  | .w0Invalid => false
  | .w0Complex => false
  | .w0EpochStartSec => false
  | .w0FrameNumber => false
  | .w1Version => false
  | .w1BitsPerSample => false
  | .w1ArrayLength => false
  | .w1RefEpochPeriod => false
  | .w1SampleRepresentation => false
  | .w1Unassigned => false
  | .w1StationId => false
  | .w2BlockLength => false
  | .w2ChannelsPerThread => false
  | .w2FreqGroup => false
  | .w2BeamId => false
  | .w3Reserved16 => false
  | .w3Period => false
  | .w3Reserved32 => false
  | .w4IntervalsPerPeriod => false
  | .w5SyncSeq => false
  | .w5Reserved32 => false
  | .w6ExtDataVersion => false
  | .w6ExtUserData => false
  | .w7ExtUserData => false

/-- Whether a register belongs to the frame header (R32). -/
def Reg.isFrame : Reg → Bool
  | .encapV => false
  | .ethDst => false
  | .ethSrc => false
  | .ethLen => false
  | .ipVersion => false
  | .ipIhl => false
  | .ipTos => false
  | .ipTotalLength => false
  | .ipIdentification => false
  | .ipFlags => false
  | .ipFragOffset => false
  | .ipTtl => false
  | .ipProtocol => false
  | .ipChecksum => false
  | .ipSrc => false
  | .ipDst => false
  | .udpSrcPort => false
  | .udpDstPort => false
  | .udpLength => false
  | .udpChecksum => false
  | .w0Invalid => true
  | .w0Complex => true
  | .w0EpochStartSec => true
  | .w0FrameNumber => true
  | .w1Version => true
  | .w1BitsPerSample => true
  | .w1ArrayLength => true
  | .w1RefEpochPeriod => true
  | .w1SampleRepresentation => true
  | .w1Unassigned => true
  | .w1StationId => true
  | .w2BlockLength => true
  | .w2ChannelsPerThread => true
  | .w2FreqGroup => true
  | .w2BeamId => true
  | .w3Reserved16 => true
  | .w3Period => true
  | .w3Reserved32 => true
  | .w4IntervalsPerPeriod => true
  | .w5SyncSeq => true
  | .w5Reserved32 => true
  | .w6ExtDataVersion => true
  | .w6ExtUserData => true
  | .w7ExtUserData => true

/-- Write one result register. -/
def State.putReg (s : State) (r : Reg) (v : Option (BitVec r.width)) : State :=
  { s with f := s.f.put r v }

end Sys2Proof.Machine
end

