-- ==== Sys2Proof/Machine/Flags.lean ====
section
/-! DEFINITION. The status: the extractor's only status or flag state (10_state.md R27). There are no condition codes, no
carry or overflow flags and no predicate registers (R36); no operation but the commands, the start and the failure writes
`STATUS`, and only the commands write `ENCAP_V`. -/

namespace Sys2Proof.Machine

/-- The code of a status (R27). -/
def Status.code : Status → BitVec 2
  | .idle => 0b00
  | .ok => 0b01
  | .errTruncated => 0b10
  | .errMalformed => 0b11

/-- The code of a mode (R22). -/
def Mode.bit : Mode → BitVec 1
  | .bare => 0
  | .encap => 1

/-- The completion of a transaction run in the given mode: `ENCAP_V <- MODE; STATUS <- OK` (44_packet.md R210). -/
def State.commit (s : State) (m : Mode) : State :=
  { s.putReg .encapV (some m.bit) with status := .ok }

end Sys2Proof.Machine
end

