-- ==== Sys2Proof/Machine/Operands.lean ====
section
/-! DEFINITION. How operands and field values are formed: big-endian assembly (00_scope.md R13 `be`, 20_memory.md R52),
shift-then-mask extraction (R13 `EXT`, 30_encoding.md R94), and the values an operation takes from the running stage:
`W[k]`, `B` and `G`. There is no sign extension, no scaling and no immediate (30_encoding.md R96, R97). -/

namespace Sys2Proof.Machine

/-- `be(s)`: the unsigned integer whose big-endian representation is `s`; 0 for no byte (R13, R52). -/
def be (bytes : List Byte) : Nat :=
  bytes.foldl (fun acc b => acc * 256 + b.toNat) 0

/-- `be(s)` as a value of `n` bits. -/
def beBits (n : Nat) (bytes : List Byte) : BitVec n :=
  BitVec.ofNat n (be bytes)

/-- `EXT(v, hi, lo)`: `(v >> lo) & (2^(hi-lo+1) - 1)`, of `hi-lo+1` bits (R13, R94). The mask is always applied (R9
`MASK_ALL`). -/
def ext {n : Nat} (v : BitVec n) (hi lo : Nat) : BitVec (hi - lo + 1) :=
  ((v >>> lo) &&& BitVec.ofNat n (2 ^ (hi - lo + 1) - 1)).setWidth (hi - lo + 1)

/-- `W[k]` (10_state.md R35): `none` where the word holds no value. -/
def State.word (s : State) (k : Fin 8) : Option FrameWord :=
  s.w[k]

/-- The field `EXT(W[k], hi, lo)`, and no value where `W[k]` has none (41_frame_header.md R132 to R155; log 3). -/
def State.wordField (s : State) (k : Fin 8) (hi lo : Nat) : Option (BitVec (hi - lo + 1)) :=
  (s.word k).map fun v => ext v hi lo

/-- `B`, "the 8-bit value of IPv4 header byte 0" (42_encapsulation.md R175, R176): what an `RD_BE(1)` just returned.
No value where the last `RD_BE` was of another width or none has run (log 6). -/
def State.operandB (s : State) : Option (BitVec 8) :=
  match s.rdbe with
  | some v => if v.nbytes = 1 then some (BitVec.ofNat 8 v.value) else none
  | none => none

/-- `G`, "the 16-bit big-endian value of IPv4 header bytes 6..7" (R175, R181): what an `RD_BE(2)` just returned. -/
def State.operandG (s : State) : Option (BitVec 16) :=
  match s.rdbe with
  | some v => if v.nbytes = 2 then some (BitVec.ofNat 16 v.value) else none
  | none => none

end Sys2Proof.Machine
end

