-- ==== Sys2Proof/Machine/Ops.lean ====
section
/-! DEFINITION. The operations every meaning is written with: the input buffer, the cursor's read (40_cursor.md R120,
R121), taking the exception TruncatedBuffer (60_exceptions.md R237) and the start that clears it (44_packet.md R210,
R215; 60_exceptions.md R240). -/

namespace Sys2Proof.Machine

/-! ### The input buffer -/

/-- One byte of the buffer: the listed one, or `Memory.fill`. -/
def Memory.get (m : Memory) (a : Nat) : Byte :=
  match m with
  | [] => Memory.fill
  | (k, b) :: rest => if k = a then b else Memory.get rest a

/-- The bytes at `a`, `a+1`, ..., `a+n-1`, lowest address first (00_scope.md R13 `MemRead`). -/
def Memory.bytes (m : Memory) (a : Nat) : (n : Nat) → List Byte
  | 0 => []
  | n + 1 => m.get a :: Memory.bytes m (a + 1) n

/-- Put one byte, keeping the canonical form: the entry is removed when the byte is what an unlisted address reads as.
Only the host writes the buffer (R21, R67). -/
def Memory.put (m : Memory) (a : Nat) (b : Byte) : Memory :=
  match m with
  | [] => if b = Memory.fill then [] else [(a, b)]
  | (k, c) :: rest =>
    if a < k then (if b = Memory.fill then (k, c) :: rest else (a, b) :: (k, c) :: rest)
    else if a = k then (if b = Memory.fill then rest else (a, b) :: rest)
    else (k, c) :: Memory.put rest a b

/-- Put bytes at `a`, `a+1`, .... -/
def Memory.putAll (m : Memory) (a : Nat) : List Byte → Memory
  | [] => m
  | b :: bs => Memory.putAll (m.put a b) (a + 1) bs

/-- Every address above `lo`, strictly rising, no entry equal to the fill. -/
def Memory.wfAbove (lo : Nat) : Memory → Bool
  | [] => true
  | (k, b) :: rest => decide (lo ≤ k) && b != Memory.fill && Memory.wfAbove (k + 1) rest

/-- The canonical form: addresses strictly rising, no entry equal to what an unlisted address reads as. -/
def Memory.wf (m : Memory) : Bool :=
  Memory.wfAbove 0 m

/-- `BUF[a]`: the byte at an address of the buffer; there is none at or above `LEN` (20_memory.md R50). -/
def State.byteAt (s : State) (a : Nat) : Option Byte :=
  if a < s.len then some (s.mem.get a) else none

/-- `BUF[a]` for a reader to whom an address that does not exist is a fault (R50). -/
def State.readByte (s : State) (a : Nat) : Except Fault Byte :=
  match s.byteAt a with
  | some b => .ok b
  | none => .error .outsideBuffer

/-! ### Running an operation -/

/-- What running an operation comes to: `ok s` goes on in `s`; `error s` has raised TruncatedBuffer in `s`. -/
abbrev Attempt := Except State State

/-- Taking TruncatedBuffer (R237): the transaction stops at once, every result register is left without value,
`STATUS <- ERR_TRUNCATED`; no handler, no saved position, nothing recorded (R238). `OFF` and `W` stay as the failing read
left them (R26, D11). -/
def State.takeTruncated (s : State) : State :=
  { s with
    f := RegFile.absent
    samples := SampleArray.absent s.geom
    status := .errTruncated
    seq := [] }

/-- The start of a transaction: `STATUS <- IDLE; all result registers <- no value` (44_packet.md R210, R215 item 2), and
`OFF = 0`, as "at the start of every transaction" (10_state.md R24): so `OFF <= LEN` from its first point on (R25), whatever
an earlier, longer buffer left in `OFF`. There is no return from the exception: this is what clears `ERR_TRUNCATED`
(60_exceptions.md R240). The temporaries lose their values and the loop counters return to 0 too, since nothing carries
over (10_state.md R37; log 11). -/
def State.beginTransaction (s : State) : State :=
  { s with
    f := RegFile.absent
    samples := SampleArray.absent s.geom
    status := .idle
    off := 0
    w := Vector.replicate 8 none
    retBytes := none
    rdbe := none
    coord := ⟨0, 0, 0⟩ }

/-- An attempt as the outcome of an operation: the exception is taken, so both cases are a next state. -/
def settle : Attempt → Host.Outcome State Fault Refusal
  | .ok s => .next s
  | .error s => .next s.takeTruncated

/-! ### The cursor -/

/-- `READ(n)` (40_cursor.md R120): the next `n` bytes and `OFF` moved past them, or TruncatedBuffer with `OFF`
unchanged when fewer than `n` bytes remain. The test comes before any byte is delivered. -/
def State.readBytes (s : State) (n : Nat) : Except State (List Byte × State) :=
  if s.len - s.off < n then .error s
  else
    let bytes := s.mem.bytes s.off n
    .ok (bytes, { s with off := s.off + n, retBytes := some bytes })

/-- `RD_BE(n)` (R121): `be(READ(n))`, an unsigned value of `8*n` bits. -/
def State.readBe (s : State) (n : Nat) : Except State (BitVec (8 * n) × State) := do
  let (bytes, s) ← s.readBytes n
  return (beBits (8 * n) bytes, { s with rdbe := some ⟨n, be bytes⟩ })

/-- `F[r] <- READ(n)`: a byte-run field, as the big-endian integer of its bytes (20_memory.md R54). -/
def State.readRun (s : State) (r : Reg) (n : Nat) : Attempt := do
  let (bytes, s) ← s.readBytes n
  return s.putReg r (some (beBits r.width bytes))

/-- `F[r] <- RD_BE(n)`: an integer field of `n` bytes. -/
def State.readField (s : State) (r : Reg) (n : Nat) : Attempt := do
  let (v, s) ← s.readBe n
  return s.putReg r (some (v.setWidth r.width))

end Sys2Proof.Machine
end

