-- ==== Sys2Proof/Machine/Cursor.lean ====
section
/-! DEFINITION. The cursor primitives (40_cursor.md): `CUR.INIT`, `READ n`, `RD_BE n`. There is no seek, rewind or peek
(R125). -/

namespace Sys2Proof.Machine

/-- `CUR.INIT`: `OFF <- 0` (R122). -/
def curInit (s : State) : Attempt :=
  .ok { s with off := 0 }

/-- `READ n` (R120). The bytes it returns are left in `retBytes`. -/
def readN (n : Nat) (s : State) : Attempt := do
  let (_, s) ← s.readBytes n
  return s

/-- `RD_BE n` (R121). The value it returns is left in `rdbe`. -/
def rdBe (n : Nat) (s : State) : Attempt := do
  let (_, s) ← s.readBe n
  return s

/-- The meaning of `CUR.INIT`. -/
def execCurInit (s : State) : Host.Outcome State Fault Refusal := settle (curInit s)

/-- The meaning of `READ n`. -/
def execRead (n : Nat) (s : State) : Host.Outcome State Fault Refusal := settle (readN n s)

/-- The meaning of `RD_BE n`. -/
def execRdBe (n : Nat) (s : State) : Host.Outcome State Fault Refusal := settle (rdBe n s)

end Sys2Proof.Machine
end

