-- ==== Sys2Proof/Machine/Encapsulation.lean ====
section
/-! DEFINITION. The encapsulation stages (42_encapsulation.md): Ethernet, IPv4, UDP. The field operations read from the cursor
themselves, in the order of the listing (30_encoding.md R105), with the read split of 20_memory.md R56. Nothing is
filtered or checked (R193); no field value changes what follows: the IPv4 header is 20 bytes whatever `ip.ihl` holds (R175,
70_reset_and_hazards.md R268). -/

namespace Sys2Proof.Machine

/-- `ETH.DST`: `eth.dst <- READ(6)` (R172). -/
def ethDst (s : State) : Attempt :=
  s.readRun .ethDst 6

/-- `ETH.SRC`: `eth.src <- READ(6)` (R173). -/
def ethSrc (s : State) : Attempt :=
  s.readRun .ethSrc 6

/-- `ETH.LEN`: `eth.len <- RD_BE(2)` (R174). -/
def ethLen (s : State) : Attempt :=
  s.readField .ethLen 2

/-- `DEC.ETH`: 14 bytes (R171). -/
def decEth (s : State) : Attempt := do
  let s ← ethDst s
  let s ← ethSrc s
  ethLen s

/-- `IP.VERSION`: `ip.version <- EXT(B, 7, 4)` (R176, 30_encoding.md R95). -/
def ipVersion (s : State) : Attempt :=
  .ok (s.putReg .ipVersion (s.operandB.map fun v => ext v 7 4))

/-- `IP.IHL`: `ip.ihl <- EXT(B, 3, 0)` (R177, 30_encoding.md R95). -/
def ipIhl (s : State) : Attempt :=
  .ok (s.putReg .ipIhl (s.operandB.map fun v => ext v 3 0))

/-- `IP.TOS`: `ip.tos <- RD_BE(1)` (R178). -/
def ipTos (s : State) : Attempt :=
  s.readField .ipTos 1

/-- `IP.TOTLEN`: `ip.total_length <- RD_BE(2)` (R179). -/
def ipTotlen (s : State) : Attempt :=
  s.readField .ipTotalLength 2

/-- `IP.ID`: `ip.identification <- RD_BE(2)` (R180). -/
def ipId (s : State) : Attempt :=
  s.readField .ipIdentification 2

/-- `IP.FLAGS`: `ip.flags <- EXT(G, 15, 13)` (R181, 30_encoding.md R95). -/
def ipFlags (s : State) : Attempt :=
  .ok (s.putReg .ipFlags (s.operandG.map fun v => ext v 15 13))

/-- `IP.FRAG`: `ip.frag_offset <- EXT(G, 12, 0)` (R182, 30_encoding.md R95). -/
def ipFrag (s : State) : Attempt :=
  .ok (s.putReg .ipFragOffset (s.operandG.map fun v => ext v 12 0))

/-- `IP.TTL`: `ip.ttl <- RD_BE(1)` (R183). -/
def ipTtl (s : State) : Attempt :=
  s.readField .ipTtl 1

/-- `IP.PROTO`: `ip.protocol <- RD_BE(1)` (R184). -/
def ipProto (s : State) : Attempt :=
  s.readField .ipProtocol 1

/-- `IP.CSUM`: `ip.checksum <- RD_BE(2)` (R185). -/
def ipCsum (s : State) : Attempt :=
  s.readField .ipChecksum 2

/-- `IP.SRC`: `ip.src <- READ(4)` (R186). -/
def ipSrc (s : State) : Attempt :=
  s.readRun .ipSrc 4

/-- `IP.DST`: `ip.dst <- READ(4)` (R187). -/
def ipDst (s : State) : Attempt :=
  s.readRun .ipDst 4

/-- `DEC.IPV4`: 20 bytes. `B <- RD_BE(1)` is read before the version and header-length nibbles, `G <- RD_BE(2)` before the flags
and the fragment offset (R175). -/
def decIpv4 (s : State) : Attempt := do
  let s ← rdBe 1 s
  let s ← ipVersion s
  let s ← ipIhl s
  let s ← ipTos s
  let s ← ipTotlen s
  let s ← ipId s
  let s ← rdBe 2 s
  let s ← ipFlags s
  let s ← ipFrag s
  let s ← ipTtl s
  let s ← ipProto s
  let s ← ipCsum s
  let s ← ipSrc s
  ipDst s

/-- `UDP.SPORT`: `udp.src_port <- RD_BE(2)` (R189). -/
def udpSport (s : State) : Attempt :=
  s.readField .udpSrcPort 2

/-- `UDP.DPORT`: `udp.dst_port <- RD_BE(2)` (R190). -/
def udpDport (s : State) : Attempt :=
  s.readField .udpDstPort 2

/-- `UDP.LEN`: `udp.length <- RD_BE(2)` (R191). -/
def udpLen (s : State) : Attempt :=
  s.readField .udpLength 2

/-- `UDP.CSUM`: `udp.checksum <- RD_BE(2)` (R192). -/
def udpCsum (s : State) : Attempt :=
  s.readField .udpChecksum 2

/-- `DEC.UDP`: 8 bytes (R188). -/
def decUdp (s : State) : Attempt := do
  let s ← udpSport s
  let s ← udpDport s
  let s ← udpLen s
  udpCsum s

/-- `DEC.ENCAP`: Ethernet, then IPv4, then UDP, strictly in that order (R170). -/
def decEncap (s : State) : Attempt := do
  let s ← decEth s
  let s ← decIpv4 s
  decUdp s

/-- The meaning of `ETH.DST`. -/
def execEthDst (s : State) : Host.Outcome State Fault Refusal := settle (ethDst s)

/-- The meaning of `ETH.SRC`. -/
def execEthSrc (s : State) : Host.Outcome State Fault Refusal := settle (ethSrc s)

/-- The meaning of `ETH.LEN`. -/
def execEthLen (s : State) : Host.Outcome State Fault Refusal := settle (ethLen s)

/-- The meaning of `DEC.ETH`. -/
def execDecEth (s : State) : Host.Outcome State Fault Refusal := settle (decEth s)

/-- The meaning of `IP.VERSION`. -/
def execIpVersion (s : State) : Host.Outcome State Fault Refusal := settle (ipVersion s)

/-- The meaning of `IP.IHL`. -/
def execIpIhl (s : State) : Host.Outcome State Fault Refusal := settle (ipIhl s)

/-- The meaning of `IP.TOS`. -/
def execIpTos (s : State) : Host.Outcome State Fault Refusal := settle (ipTos s)

/-- The meaning of `IP.TOTLEN`. -/
def execIpTotlen (s : State) : Host.Outcome State Fault Refusal := settle (ipTotlen s)

/-- The meaning of `IP.ID`. -/
def execIpId (s : State) : Host.Outcome State Fault Refusal := settle (ipId s)

/-- The meaning of `IP.FLAGS`. -/
def execIpFlags (s : State) : Host.Outcome State Fault Refusal := settle (ipFlags s)

/-- The meaning of `IP.FRAG`. -/
def execIpFrag (s : State) : Host.Outcome State Fault Refusal := settle (ipFrag s)

/-- The meaning of `IP.TTL`. -/
def execIpTtl (s : State) : Host.Outcome State Fault Refusal := settle (ipTtl s)

/-- The meaning of `IP.PROTO`. -/
def execIpProto (s : State) : Host.Outcome State Fault Refusal := settle (ipProto s)

/-- The meaning of `IP.CSUM`. -/
def execIpCsum (s : State) : Host.Outcome State Fault Refusal := settle (ipCsum s)

/-- The meaning of `IP.SRC`. -/
def execIpSrc (s : State) : Host.Outcome State Fault Refusal := settle (ipSrc s)

/-- The meaning of `IP.DST`. -/
def execIpDst (s : State) : Host.Outcome State Fault Refusal := settle (ipDst s)

/-- The meaning of `DEC.IPV4`. -/
def execDecIpv4 (s : State) : Host.Outcome State Fault Refusal := settle (decIpv4 s)

/-- The meaning of `UDP.SPORT`. -/
def execUdpSport (s : State) : Host.Outcome State Fault Refusal := settle (udpSport s)

/-- The meaning of `UDP.DPORT`. -/
def execUdpDport (s : State) : Host.Outcome State Fault Refusal := settle (udpDport s)

/-- The meaning of `UDP.LEN`. -/
def execUdpLen (s : State) : Host.Outcome State Fault Refusal := settle (udpLen s)

/-- The meaning of `UDP.CSUM`. -/
def execUdpCsum (s : State) : Host.Outcome State Fault Refusal := settle (udpCsum s)

/-- The meaning of `DEC.UDP`. -/
def execDecUdp (s : State) : Host.Outcome State Fault Refusal := settle (decUdp s)

/-- The meaning of `DEC.ENCAP`. -/
def execDecEncap (s : State) : Host.Outcome State Fault Refusal := settle (decEncap s)

end Sys2Proof.Machine
end

