-- ==== Sys2Proof/Machine/FrameHeader.lean ====
section
/-! DEFINITION. The frame-header stage (41_frame_header.md): the word read `FH.RDW k`, the 24 field extractions and the stage
`DEC.FHDR`. A field operation reads one word `W[k]` and writes one register by shift then mask (30_encoding.md R94); its bit
range is that of the table of R81, with `epoch_start_sec` at 61..32 (90_conflicts.md C1). No value is rejected (R98, R99). -/

namespace Sys2Proof.Machine

/-- `FH.RDW k`: `W[k] <- RD_BE(8)` (R131). -/
def fhRdw (k : Fin 8) (s : State) : Attempt := do
  let (v, s) ← s.readBe 8
  return { s with w := s.w.set k (some v) }

/-- `FH.W0.INVALID`: `w0.invalid <- EXT(W[0], 63, 63)` (R132). -/
def fhW0Invalid (s : State) : Attempt :=
  .ok (s.putReg .w0Invalid (s.wordField 0 63 63))

/-- `FH.W0.COMPLEX`: `w0.complex <- EXT(W[0], 62, 62)` (R133). -/
def fhW0Complex (s : State) : Attempt :=
  .ok (s.putReg .w0Complex (s.wordField 0 62 62))

/-- `FH.W0.EPOCH`: `w0.epoch_start_sec <- EXT(W[0], 61, 32)` (R134). -/
def fhW0Epoch (s : State) : Attempt :=
  .ok (s.putReg .w0EpochStartSec (s.wordField 0 61 32))

/-- `FH.W0.FRAME`: `w0.frame_number <- EXT(W[0], 31, 0)` (R135). -/
def fhW0Frame (s : State) : Attempt :=
  .ok (s.putReg .w0FrameNumber (s.wordField 0 31 0))

/-- `FH.W1.VERSION`: `w1.version <- EXT(W[1], 63, 61)` (R136). -/
def fhW1Version (s : State) : Attempt :=
  .ok (s.putReg .w1Version (s.wordField 1 63 61))

/-- `FH.W1.BPS`: `w1.bits_per_sample <- EXT(W[1], 60, 56)` (R137). -/
def fhW1Bps (s : State) : Attempt :=
  .ok (s.putReg .w1BitsPerSample (s.wordField 1 60 56))

/-- `FH.W1.ARRLEN`: `w1.array_length <- EXT(W[1], 55, 32)` (R138). -/
def fhW1Arrlen (s : State) : Attempt :=
  .ok (s.putReg .w1ArrayLength (s.wordField 1 55 32))

/-- `FH.W1.REFEP`: `w1.ref_epoch_period <- EXT(W[1], 31, 26)` (R139). -/
def fhW1Refep (s : State) : Attempt :=
  .ok (s.putReg .w1RefEpochPeriod (s.wordField 1 31 26))

/-- `FH.W1.SREP`: `w1.sample_representation <- EXT(W[1], 25, 22)` (R140). -/
def fhW1Srep (s : State) : Attempt :=
  .ok (s.putReg .w1SampleRepresentation (s.wordField 1 25 22))

/-- `FH.W1.UNASSIGNED`: `w1.unassigned <- EXT(W[1], 21, 16)` (R141). -/
def fhW1Unassigned (s : State) : Attempt :=
  .ok (s.putReg .w1Unassigned (s.wordField 1 21 16))

/-- `FH.W1.STATION`: `w1.station_id <- EXT(W[1], 15, 0)` (R142). -/
def fhW1Station (s : State) : Attempt :=
  .ok (s.putReg .w1StationId (s.wordField 1 15 0))

/-- `FH.W2.BLKLEN`: `w2.block_length <- EXT(W[2], 63, 48)` (R143). -/
def fhW2Blklen (s : State) : Attempt :=
  .ok (s.putReg .w2BlockLength (s.wordField 2 63 48))

/-- `FH.W2.CHPT`: `w2.channels_per_thread <- EXT(W[2], 47, 32)` (R144). -/
def fhW2Chpt (s : State) : Attempt :=
  .ok (s.putReg .w2ChannelsPerThread (s.wordField 2 47 32))

/-- `FH.W2.FGROUP`: `w2.freq_group <- EXT(W[2], 31, 16)` (R145). -/
def fhW2Fgroup (s : State) : Attempt :=
  .ok (s.putReg .w2FreqGroup (s.wordField 2 31 16))

/-- `FH.W2.BEAM`: `w2.beam_id <- EXT(W[2], 15, 0)` (R146). -/
def fhW2Beam (s : State) : Attempt :=
  .ok (s.putReg .w2BeamId (s.wordField 2 15 0))

/-- `FH.W3.RSVD16`: `w3.reserved16 <- EXT(W[3], 63, 48)` (R147). -/
def fhW3Rsvd16 (s : State) : Attempt :=
  .ok (s.putReg .w3Reserved16 (s.wordField 3 63 48))

/-- `FH.W3.PERIOD`: `w3.period <- EXT(W[3], 47, 32)` (R148). -/
def fhW3Period (s : State) : Attempt :=
  .ok (s.putReg .w3Period (s.wordField 3 47 32))

/-- `FH.W3.RSVD32`: `w3.reserved32 <- EXT(W[3], 31, 0)` (R149). -/
def fhW3Rsvd32 (s : State) : Attempt :=
  .ok (s.putReg .w3Reserved32 (s.wordField 3 31 0))

/-- `FH.W4.IPP`: `w4.intervals_per_period <- EXT(W[4], 63, 0)` (R150). -/
def fhW4Ipp (s : State) : Attempt :=
  .ok (s.putReg .w4IntervalsPerPeriod (s.wordField 4 63 0))

/-- `FH.W5.SYNC`: `w5.sync_seq <- EXT(W[5], 63, 32)` (R151). -/
def fhW5Sync (s : State) : Attempt :=
  .ok (s.putReg .w5SyncSeq (s.wordField 5 63 32))

/-- `FH.W5.RSVD32`: `w5.reserved32 <- EXT(W[5], 31, 0)` (R152). -/
def fhW5Rsvd32 (s : State) : Attempt :=
  .ok (s.putReg .w5Reserved32 (s.wordField 5 31 0))

/-- `FH.W6.EDV`: `w6.ext_data_version <- EXT(W[6], 63, 56)` (R153). -/
def fhW6Edv (s : State) : Attempt :=
  .ok (s.putReg .w6ExtDataVersion (s.wordField 6 63 56))

/-- `FH.W6.EUD`: `w6.ext_user_data <- EXT(W[6], 55, 0)` (R154). -/
def fhW6Eud (s : State) : Attempt :=
  .ok (s.putReg .w6ExtUserData (s.wordField 6 55 0))

/-- `FH.W7.EUD`: `w7.ext_user_data <- EXT(W[7], 63, 0)` (R155). -/
def fhW7Eud (s : State) : Attempt :=
  .ok (s.putReg .w7ExtUserData (s.wordField 7 63 0))

/-- `DEC.FHDR`: the eight word reads in order, then the 24 field operations (R130, R103). -/
def decFhdr (s : State) : Attempt := do
  let s ← fhRdw 0 s
  let s ← fhRdw 1 s
  let s ← fhRdw 2 s
  let s ← fhRdw 3 s
  let s ← fhRdw 4 s
  let s ← fhRdw 5 s
  let s ← fhRdw 6 s
  let s ← fhRdw 7 s
  let s ← fhW0Invalid s
  let s ← fhW0Complex s
  let s ← fhW0Epoch s
  let s ← fhW0Frame s
  let s ← fhW1Version s
  let s ← fhW1Bps s
  let s ← fhW1Arrlen s
  let s ← fhW1Refep s
  let s ← fhW1Srep s
  let s ← fhW1Unassigned s
  let s ← fhW1Station s
  let s ← fhW2Blklen s
  let s ← fhW2Chpt s
  let s ← fhW2Fgroup s
  let s ← fhW2Beam s
  let s ← fhW3Rsvd16 s
  let s ← fhW3Period s
  let s ← fhW3Rsvd32 s
  let s ← fhW4Ipp s
  let s ← fhW5Sync s
  let s ← fhW5Rsvd32 s
  let s ← fhW6Edv s
  let s ← fhW6Eud s
  fhW7Eud s

/-- The meaning of `FH.RDW k`. -/
def execFhRdw (k : Fin 8) (s : State) : Host.Outcome State Fault Refusal := settle (fhRdw k s)

/-- The meaning of `FH.W0.INVALID`. -/
def execFhW0Invalid (s : State) : Host.Outcome State Fault Refusal := settle (fhW0Invalid s)

/-- The meaning of `FH.W0.COMPLEX`. -/
def execFhW0Complex (s : State) : Host.Outcome State Fault Refusal := settle (fhW0Complex s)

/-- The meaning of `FH.W0.EPOCH`. -/
def execFhW0Epoch (s : State) : Host.Outcome State Fault Refusal := settle (fhW0Epoch s)

/-- The meaning of `FH.W0.FRAME`. -/
def execFhW0Frame (s : State) : Host.Outcome State Fault Refusal := settle (fhW0Frame s)

/-- The meaning of `FH.W1.VERSION`. -/
def execFhW1Version (s : State) : Host.Outcome State Fault Refusal := settle (fhW1Version s)

/-- The meaning of `FH.W1.BPS`. -/
def execFhW1Bps (s : State) : Host.Outcome State Fault Refusal := settle (fhW1Bps s)

/-- The meaning of `FH.W1.ARRLEN`. -/
def execFhW1Arrlen (s : State) : Host.Outcome State Fault Refusal := settle (fhW1Arrlen s)

/-- The meaning of `FH.W1.REFEP`. -/
def execFhW1Refep (s : State) : Host.Outcome State Fault Refusal := settle (fhW1Refep s)

/-- The meaning of `FH.W1.SREP`. -/
def execFhW1Srep (s : State) : Host.Outcome State Fault Refusal := settle (fhW1Srep s)

/-- The meaning of `FH.W1.UNASSIGNED`. -/
def execFhW1Unassigned (s : State) : Host.Outcome State Fault Refusal := settle (fhW1Unassigned s)

/-- The meaning of `FH.W1.STATION`. -/
def execFhW1Station (s : State) : Host.Outcome State Fault Refusal := settle (fhW1Station s)

/-- The meaning of `FH.W2.BLKLEN`. -/
def execFhW2Blklen (s : State) : Host.Outcome State Fault Refusal := settle (fhW2Blklen s)

/-- The meaning of `FH.W2.CHPT`. -/
def execFhW2Chpt (s : State) : Host.Outcome State Fault Refusal := settle (fhW2Chpt s)

/-- The meaning of `FH.W2.FGROUP`. -/
def execFhW2Fgroup (s : State) : Host.Outcome State Fault Refusal := settle (fhW2Fgroup s)

/-- The meaning of `FH.W2.BEAM`. -/
def execFhW2Beam (s : State) : Host.Outcome State Fault Refusal := settle (fhW2Beam s)

/-- The meaning of `FH.W3.RSVD16`. -/
def execFhW3Rsvd16 (s : State) : Host.Outcome State Fault Refusal := settle (fhW3Rsvd16 s)

/-- The meaning of `FH.W3.PERIOD`. -/
def execFhW3Period (s : State) : Host.Outcome State Fault Refusal := settle (fhW3Period s)

/-- The meaning of `FH.W3.RSVD32`. -/
def execFhW3Rsvd32 (s : State) : Host.Outcome State Fault Refusal := settle (fhW3Rsvd32 s)

/-- The meaning of `FH.W4.IPP`. -/
def execFhW4Ipp (s : State) : Host.Outcome State Fault Refusal := settle (fhW4Ipp s)

/-- The meaning of `FH.W5.SYNC`. -/
def execFhW5Sync (s : State) : Host.Outcome State Fault Refusal := settle (fhW5Sync s)

/-- The meaning of `FH.W5.RSVD32`. -/
def execFhW5Rsvd32 (s : State) : Host.Outcome State Fault Refusal := settle (fhW5Rsvd32 s)

/-- The meaning of `FH.W6.EDV`. -/
def execFhW6Edv (s : State) : Host.Outcome State Fault Refusal := settle (fhW6Edv s)

/-- The meaning of `FH.W6.EUD`. -/
def execFhW6Eud (s : State) : Host.Outcome State Fault Refusal := settle (fhW6Eud s)

/-- The meaning of `FH.W7.EUD`. -/
def execFhW7Eud (s : State) : Host.Outcome State Fault Refusal := settle (fhW7Eud s)

/-- The meaning of `DEC.FHDR`. -/
def execDecFhdr (s : State) : Host.Outcome State Fault Refusal := settle (decFhdr s)

end Sys2Proof.Machine
end

