-- ==== Sys2Proof/Machine/Payload.lean ====
section
/-! DEFINITION. The payload stage (43_payload.md): `SMP.RE`, `SMP.IM`, `DEC.PAYLOAD`. Two big-endian 16-bit unsigned integers a
sample, block outermost, polarization innermost (R200, R203); no scaling, no sign (R204, 70_reset_and_hazards.md R271). The
extents are the geometry of the hardware, whatever the header announces (R205). -/

namespace Sys2Proof.Machine

/-- Bytes of the payload, in the naturals (00_scope.md R7 `PAYLOAD_BYTES`). -/
def Geometry.payloadBytes (g : Geometry) : Nat :=
  g.nBlk * g.nCh * g.nPol * Config.sampleBytes

/-- The element at a coordinate; an index outside the extents is no element (10_state.md R34). -/
def SampleArray.at (a : SampleArray) (b c p : Nat) : Option Sample :=
  (a[b]?.bind fun ch => ch[c]?).bind fun po => po[p]?

/-- Change the element at a coordinate. The extents never change and nothing outside them is written (R207). -/
def SampleArray.update (a : SampleArray) (x : Coord) (g : Sample → Sample) : SampleArray :=
  a.modify x.b fun ch => ch.modify x.c fun po => po.modify x.p g

/-- The coordinate after `x` in the order of the loops: polarization fastest, then channel, then block (R200, R203). -/
def Coord.next (g : Geometry) (x : Coord) : Coord :=
  if x.p + 1 < g.nPol then ⟨x.b, x.c, x.p + 1⟩
  else if x.c + 1 < g.nCh then ⟨x.b, x.c + 1, 0⟩
  else ⟨x.b + 1, 0, 0⟩

/-- `SMP.RE`: `RD_BE(2)`, the first element of the current sample's pair (R201). -/
def smpRe (s : State) : Attempt := do
  let (v, s) ← s.readBe 2
  return { s with samples := s.samples.update s.coord fun e => { e with re := some v } }

/-- `SMP.IM`: `RD_BE(2)`, the second element of the current sample's pair (R202); the sample is then complete and the next
coordinate is the current one (log 7). -/
def smpIm (s : State) : Attempt := do
  let (v, s) ← s.readBe 2
  return { s with
    samples := s.samples.update s.coord fun e => { e with im := some v }
    coord := s.coord.next s.geom }

/-- One iteration of the innermost loop of R200. -/
def sampleAt (b c p : Nat) (s : State) : Attempt := do
  let s ← smpRe { s with coord := ⟨b, c, p⟩ }
  smpIm s

/-- `for i in 0 .. n-1` (R200). -/
def forUpto (n : Nat) (body : Nat → State → Attempt) (s : State) : Attempt :=
  (List.range n).foldlM (fun s i => body i s) s

/-- `DEC.PAYLOAD`: "outer loop over block, then channel, then polarization" (R200). -/
def decPayload (s : State) : Attempt :=
  forUpto s.geom.nBlk (fun b =>
    forUpto s.geom.nCh fun c =>
      forUpto s.geom.nPol fun p =>
        sampleAt b c p) s

/-- The meaning of `SMP.RE`. -/
def execSmpRe (s : State) : Host.Outcome State Fault Refusal := settle (smpRe s)

/-- The meaning of `SMP.IM`. -/
def execSmpIm (s : State) : Host.Outcome State Fault Refusal := settle (smpIm s)

/-- The meaning of `DEC.PAYLOAD`. -/
def execDecPayload (s : State) : Host.Outcome State Fault Refusal := settle (decPayload s)

end Sys2Proof.Machine
end

