-- ==== Sys2Proof/Machine/Packet.lean ====
section
/-! DEFINITION. The two commands (44_packet.md R210 to R212): one whole decode transaction, in one step as the host sees it
(00_scope.md R8, R215 "A model may take steps 2 to 4 as a single atomic step"). -/

namespace Sys2Proof.Machine

/-- `DECODE.BARE` (R211, R210): begin; `CUR.INIT; DEC.FHDR; DEC.PAYLOAD`; `ENCAP_V <- 0; STATUS <- OK`. -/
def decodeBare (s : State) : Attempt := do
  let s ← curInit s.beginTransaction
  let s ← decFhdr s
  let s ← decPayload s
  return s.commit .bare

/-- `DECODE.ENCAP` (R212, R210): begin; `CUR.INIT; DEC.ENCAP; DEC.FHDR; DEC.PAYLOAD`; `ENCAP_V <- 1; STATUS <- OK`. -/
def decodeEncap (s : State) : Attempt := do
  let s ← curInit s.beginTransaction
  let s ← decEncap s
  let s ← decFhdr s
  let s ← decPayload s
  return s.commit .encap

/-- The meaning of `DECODE.BARE`. -/
def execDecodeBare (s : State) : Host.Outcome State Fault Refusal := settle (decodeBare s)

/-- The meaning of `DECODE.ENCAP`. -/
def execDecodeEncap (s : State) : Host.Outcome State Fault Refusal := settle (decodeEncap s)

end Sys2Proof.Machine
end

