-- ==== Sys2Proof/Machine/Dispatch.lean ====
section
/-! DEFINITION. Which meaning each operation has. -/

namespace Sys2Proof.Machine

def exec (i : Instr) (s : State) : Host.Outcome State Fault Refusal :=
  match i with
  | .curInit => Sys2Proof.Machine.execCurInit s
  | .read n => Sys2Proof.Machine.execRead n s
  | .rdBe n => Sys2Proof.Machine.execRdBe n s
  | .fhRdw k => Sys2Proof.Machine.execFhRdw k s
  | .fhW0Invalid => Sys2Proof.Machine.execFhW0Invalid s
  | .fhW0Complex => Sys2Proof.Machine.execFhW0Complex s
  | .fhW0Epoch => Sys2Proof.Machine.execFhW0Epoch s
  | .fhW0Frame => Sys2Proof.Machine.execFhW0Frame s
  | .fhW1Version => Sys2Proof.Machine.execFhW1Version s
  | .fhW1Bps => Sys2Proof.Machine.execFhW1Bps s
  | .fhW1Arrlen => Sys2Proof.Machine.execFhW1Arrlen s
  | .fhW1Refep => Sys2Proof.Machine.execFhW1Refep s
  | .fhW1Srep => Sys2Proof.Machine.execFhW1Srep s
  | .fhW1Unassigned => Sys2Proof.Machine.execFhW1Unassigned s
  | .fhW1Station => Sys2Proof.Machine.execFhW1Station s
  | .fhW2Blklen => Sys2Proof.Machine.execFhW2Blklen s
  | .fhW2Chpt => Sys2Proof.Machine.execFhW2Chpt s
  | .fhW2Fgroup => Sys2Proof.Machine.execFhW2Fgroup s
  | .fhW2Beam => Sys2Proof.Machine.execFhW2Beam s
  | .fhW3Rsvd16 => Sys2Proof.Machine.execFhW3Rsvd16 s
  | .fhW3Period => Sys2Proof.Machine.execFhW3Period s
  | .fhW3Rsvd32 => Sys2Proof.Machine.execFhW3Rsvd32 s
  | .fhW4Ipp => Sys2Proof.Machine.execFhW4Ipp s
  | .fhW5Sync => Sys2Proof.Machine.execFhW5Sync s
  | .fhW5Rsvd32 => Sys2Proof.Machine.execFhW5Rsvd32 s
  | .fhW6Edv => Sys2Proof.Machine.execFhW6Edv s
  | .fhW6Eud => Sys2Proof.Machine.execFhW6Eud s
  | .fhW7Eud => Sys2Proof.Machine.execFhW7Eud s
  | .decFhdr => Sys2Proof.Machine.execDecFhdr s
  | .ethDst => Sys2Proof.Machine.execEthDst s
  | .ethSrc => Sys2Proof.Machine.execEthSrc s
  | .ethLen => Sys2Proof.Machine.execEthLen s
  | .decEth => Sys2Proof.Machine.execDecEth s
  | .ipVersion => Sys2Proof.Machine.execIpVersion s
  | .ipIhl => Sys2Proof.Machine.execIpIhl s
  | .ipTos => Sys2Proof.Machine.execIpTos s
  | .ipTotlen => Sys2Proof.Machine.execIpTotlen s
  | .ipId => Sys2Proof.Machine.execIpId s
  | .ipFlags => Sys2Proof.Machine.execIpFlags s
  | .ipFrag => Sys2Proof.Machine.execIpFrag s
  | .ipTtl => Sys2Proof.Machine.execIpTtl s
  | .ipProto => Sys2Proof.Machine.execIpProto s
  | .ipCsum => Sys2Proof.Machine.execIpCsum s
  | .ipSrc => Sys2Proof.Machine.execIpSrc s
  | .ipDst => Sys2Proof.Machine.execIpDst s
  | .decIpv4 => Sys2Proof.Machine.execDecIpv4 s
  | .udpSport => Sys2Proof.Machine.execUdpSport s
  | .udpDport => Sys2Proof.Machine.execUdpDport s
  | .udpLen => Sys2Proof.Machine.execUdpLen s
  | .udpCsum => Sys2Proof.Machine.execUdpCsum s
  | .decUdp => Sys2Proof.Machine.execDecUdp s
  | .decEncap => Sys2Proof.Machine.execDecEncap s
  | .smpRe => Sys2Proof.Machine.execSmpRe s
  | .smpIm => Sys2Proof.Machine.execSmpIm s
  | .decPayload => Sys2Proof.Machine.execDecPayload s
  | .decodeBare => Sys2Proof.Machine.execDecodeBare s
  | .decodeEncap => Sys2Proof.Machine.execDecodeEncap s

end Sys2Proof.Machine
end

