-- ==== Sys2Proof/Machine/HostView.lean ====
section
/-! DEFINITION. The host's side of the extractor: its moves (44_packet.md R215, 70_reset_and_hazards.md R260), what it may read
(10_state.md R39), the Packet (R213), `FH_ENCODE` (41_frame_header.md R156) and the text renderings (44_packet.md R216 to
R218). None of these is an operation of the extractor; `step` uses only `State.acceptStart`. -/

namespace Sys2Proof.Machine

/-! ### Host moves -/

/-- Whether a run is in progress. It "begins when the host starts it" (44_packet.md R222): a start request stands, or
operations of the transaction are still to run. -/
def State.running (s : State) : Bool := s.start || !s.seq.isEmpty

/-- The command `MODE` selects (30_encoding.md R101). -/
def Mode.command : Mode → Instr
  | .bare => .decodeBare
  | .encap => .decodeEncap

/-- A start request is accepted: whatever outcome stands is discarded, `OFF` is 0 (R215 item 2, 10_state.md R24, R37) and the
command of `MODE` is what runs next. -/
def State.acceptStart (s : State) : State :=
  { s.beginTransaction with start := false, seq := [s.mode.command] }

/-- The host presents a packet and its mode (R215 item 1), which it may do only while no run is in progress (R39); what
the extractor does if it breaks this is unspecified and the move does not exist here (R266, log 10). -/
def State.hostPresent (s : State) (packet : List Byte) (m : Mode) : Except Refusal State :=
  if s.running then .error .startDuringRun
  else .ok { s with mem := Memory.putAll [] 0 packet, len := packet.length, mode := m }

/-- The host issues start, and with it the run begins (R222): the previous outcome is discarded and `OFF` is 0 at once (R215
items 1 and 2, 10_state.md R24), and the request stands until a step accepts it; while a run is in progress it is no
permitted move (R267, log 10). -/
def State.hostStart (s : State) : Except Refusal State :=
  if s.running then .error .startDuringRun
  else .ok { s.beginTransaction with start := true }

/-- Reset, at any time: a running transaction is abandoned without an outcome and the state is that of R38; the inputs are
the host's and the geometry is the build's (R260). -/
def State.hostReset (s : State) : State :=
  { State.reset with mem := s.mem, len := s.len, mode := s.mode, geom := s.geom, samples := SampleArray.absent s.geom }

/-- The host reads a result register: only while `STATUS = OK`, and only if it has a value (R28, R39, R267). -/
def State.hostRead (s : State) (r : Reg) : Except Fault (BitVec r.width) :=
  if s.status = .ok then
    match s.f.get r with
    | some v => .ok v
    | none => .error .noValue
  else .error .noValue

/-- The pair of a sample whose two parts both have a value (R34). -/
def Sample.pair : Sample → Option (Component × Component)
  | ⟨some re, some im⟩ => some (re, im)
  | _ => none

/-- The host reads `S[b][c][p]`: "an explicitly dimensioned, bounds-checked container" (R34, R207). -/
def State.hostSample (s : State) (b c p : Nat) : Except Fault (Component × Component) :=
  if s.status = .ok then
    match s.samples.at b c p with
    | some e =>
      match e.pair with
      | some v => .ok v
      | none => .error .noValue
    | none => .error .noSuchSample
  else .error .noValue

/-! ### The Packet (R213) -/

/-- The Ethernet header of a Packet. -/
structure EthernetHeader where
  /-- `eth.dst`. -/
  dst : BitVec 48
  /-- `eth.src`. -/
  src : BitVec 48
  /-- `eth.len`. -/
  len : BitVec 16
deriving DecidableEq, Repr

/-- The IPv4 header of a Packet. -/
structure IPv4Header where
  /-- `ip.version`. -/
  version : BitVec 4
  /-- `ip.ihl`. -/
  ihl : BitVec 4
  /-- `ip.tos`. -/
  tos : BitVec 8
  /-- `ip.total_length`. -/
  totalLength : BitVec 16
  /-- `ip.identification`. -/
  identification : BitVec 16
  /-- `ip.flags`. -/
  flags : BitVec 3
  /-- `ip.frag_offset`. -/
  fragOffset : BitVec 13
  /-- `ip.ttl`. -/
  ttl : BitVec 8
  /-- `ip.protocol`. -/
  protocol : BitVec 8
  /-- `ip.checksum`. -/
  checksum : BitVec 16
  /-- `ip.src`. -/
  src : BitVec 32
  /-- `ip.dst`. -/
  dst : BitVec 32
deriving DecidableEq, Repr

/-- The UDP header of a Packet. -/
structure UDPHeader where
  /-- `udp.src_port`. -/
  srcPort : BitVec 16
  /-- `udp.dst_port`. -/
  dstPort : BitVec 16
  /-- `udp.length`. -/
  length : BitVec 16
  /-- `udp.checksum`. -/
  checksum : BitVec 16
deriving DecidableEq, Repr

/-- The three encapsulation headers, present all together (90_conflicts.md C7). -/
structure EncapHeaders where
  /-- `eth.*`. -/
  eth : EthernetHeader
  /-- `ip.*`. -/
  ip : IPv4Header
  /-- `udp.*`. -/
  udp : UDPHeader
deriving DecidableEq, Repr

/-- The fields of frame-header word 0. -/
structure Word0Fields where
  /-- `w0.invalid`. -/
  invalid : BitVec 1
  /-- `w0.complex`. -/
  complex : BitVec 1
  /-- `w0.epoch_start_sec`. -/
  epochStartSec : BitVec 30
  /-- `w0.frame_number`. -/
  frameNumber : BitVec 32
deriving DecidableEq, Repr

/-- The fields of frame-header word 1. -/
structure Word1Fields where
  /-- `w1.version`. -/
  version : BitVec 3
  /-- `w1.bits_per_sample`. -/
  bitsPerSample : BitVec 5
  /-- `w1.array_length`. -/
  arrayLength : BitVec 24
  /-- `w1.ref_epoch_period`. -/
  refEpochPeriod : BitVec 6
  /-- `w1.sample_representation`. -/
  sampleRepresentation : BitVec 4
  /-- `w1.unassigned`. -/
  unassigned : BitVec 6
  /-- `w1.station_id`. -/
  stationId : BitVec 16
deriving DecidableEq, Repr

/-- The fields of frame-header word 2. -/
structure Word2Fields where
  /-- `w2.block_length`. -/
  blockLength : BitVec 16
  /-- `w2.channels_per_thread`. -/
  channelsPerThread : BitVec 16
  /-- `w2.freq_group`. -/
  freqGroup : BitVec 16
  /-- `w2.beam_id`. -/
  beamId : BitVec 16
deriving DecidableEq, Repr

/-- The fields of frame-header word 3. -/
structure Word3Fields where
  /-- `w3.reserved16`. -/
  reserved16 : BitVec 16
  /-- `w3.period`. -/
  period : BitVec 16
  /-- `w3.reserved32`. -/
  reserved32 : BitVec 32
deriving DecidableEq, Repr

/-- The fields of frame-header word 4. -/
structure Word4Fields where
  /-- `w4.intervals_per_period`. -/
  intervalsPerPeriod : BitVec 64
deriving DecidableEq, Repr

/-- The fields of frame-header word 5. -/
structure Word5Fields where
  /-- `w5.sync_seq`. -/
  syncSeq : BitVec 32
  /-- `w5.reserved32`. -/
  reserved32 : BitVec 32
deriving DecidableEq, Repr

/-- The fields of frame-header word 6. -/
structure Word6Fields where
  /-- `w6.ext_data_version`. -/
  extDataVersion : BitVec 8
  /-- `w6.ext_user_data`. -/
  extUserData : BitVec 56
deriving DecidableEq, Repr

/-- The fields of frame-header word 7. -/
structure Word7Fields where
  /-- `w7.ext_user_data`. -/
  extUserData : BitVec 64
deriving DecidableEq, Repr

/-- The frame header: "a single structured record per word, with no flattened/shadowed aliasing" (R213, R33). -/
structure FrameHeader where
  /-- Word 0. -/
  w0 : Word0Fields
  /-- Word 1. -/
  w1 : Word1Fields
  /-- Word 2. -/
  w2 : Word2Fields
  /-- Word 3. -/
  w3 : Word3Fields
  /-- Word 4. -/
  w4 : Word4Fields
  /-- Word 5. -/
  w5 : Word5Fields
  /-- Word 6. -/
  w6 : Word6Fields
  /-- Word 7. -/
  w7 : Word7Fields
deriving DecidableEq, Repr

/-- The result of a decode (R213). -/
structure Packet where
  /-- The encapsulation headers, absent when `ENCAP_V = 0`. -/
  encap : Option EncapHeaders
  /-- The frame header, always present. -/
  header : FrameHeader
  /-- The samples, extents `N_BLK x N_CH x N_POL`. -/
  samples : List (List (List (Component × Component)))
deriving DecidableEq, Repr

/-- The frame header in the registers, if every one has a value. -/
def RegFile.frameHeader (f : RegFile) : Option FrameHeader := do
  let w0Invalid ← f.w0Invalid
  let w0Complex ← f.w0Complex
  let w0EpochStartSec ← f.w0EpochStartSec
  let w0FrameNumber ← f.w0FrameNumber
  let w1Version ← f.w1Version
  let w1BitsPerSample ← f.w1BitsPerSample
  let w1ArrayLength ← f.w1ArrayLength
  let w1RefEpochPeriod ← f.w1RefEpochPeriod
  let w1SampleRepresentation ← f.w1SampleRepresentation
  let w1Unassigned ← f.w1Unassigned
  let w1StationId ← f.w1StationId
  let w2BlockLength ← f.w2BlockLength
  let w2ChannelsPerThread ← f.w2ChannelsPerThread
  let w2FreqGroup ← f.w2FreqGroup
  let w2BeamId ← f.w2BeamId
  let w3Reserved16 ← f.w3Reserved16
  let w3Period ← f.w3Period
  let w3Reserved32 ← f.w3Reserved32
  let w4IntervalsPerPeriod ← f.w4IntervalsPerPeriod
  let w5SyncSeq ← f.w5SyncSeq
  let w5Reserved32 ← f.w5Reserved32
  let w6ExtDataVersion ← f.w6ExtDataVersion
  let w6ExtUserData ← f.w6ExtUserData
  let w7ExtUserData ← f.w7ExtUserData
  return ⟨⟨w0Invalid, w0Complex, w0EpochStartSec, w0FrameNumber⟩, ⟨w1Version, w1BitsPerSample, w1ArrayLength, w1RefEpochPeriod, w1SampleRepresentation, w1Unassigned, w1StationId⟩, ⟨w2BlockLength, w2ChannelsPerThread, w2FreqGroup, w2BeamId⟩, ⟨w3Reserved16, w3Period, w3Reserved32⟩, ⟨w4IntervalsPerPeriod⟩, ⟨w5SyncSeq, w5Reserved32⟩, ⟨w6ExtDataVersion, w6ExtUserData⟩, ⟨w7ExtUserData⟩⟩

/-- The encapsulation headers in the registers, if every one has a value. -/
def RegFile.encapHeaders (f : RegFile) : Option EncapHeaders := do
  let ethDst ← f.ethDst
  let ethSrc ← f.ethSrc
  let ethLen ← f.ethLen
  let ipVersion ← f.ipVersion
  let ipIhl ← f.ipIhl
  let ipTos ← f.ipTos
  let ipTotalLength ← f.ipTotalLength
  let ipIdentification ← f.ipIdentification
  let ipFlags ← f.ipFlags
  let ipFragOffset ← f.ipFragOffset
  let ipTtl ← f.ipTtl
  let ipProtocol ← f.ipProtocol
  let ipChecksum ← f.ipChecksum
  let ipSrc ← f.ipSrc
  let ipDst ← f.ipDst
  let udpSrcPort ← f.udpSrcPort
  let udpDstPort ← f.udpDstPort
  let udpLength ← f.udpLength
  let udpChecksum ← f.udpChecksum
  return ⟨⟨ethDst, ethSrc, ethLen⟩, ⟨ipVersion, ipIhl, ipTos, ipTotalLength, ipIdentification, ipFlags, ipFragOffset, ipTtl, ipProtocol, ipChecksum, ipSrc, ipDst⟩, ⟨udpSrcPort, udpDstPort, udpLength, udpChecksum⟩⟩

/-- The samples, if every element has a value. -/
def SampleArray.pairs (a : SampleArray) : Option (List (List (List (Component × Component)))) :=
  a.mapM fun ch => ch.mapM fun po => po.mapM Sample.pair

/-- The Packet the host reads while `STATUS = OK` (R213, R215 item 4): the encapsulation headers when `ENCAP_V` is 1. -/
def State.packet (s : State) : Option Packet :=
  if s.status = .ok then do
    let encapV ← s.f.encapV
    let header ← s.f.frameHeader
    let samples ← s.samples.pairs
    if encapV = 1 then do
      let e ← s.f.encapHeaders
      return ⟨some e, header, samples⟩
    else return ⟨none, header, samples⟩
  else none

/-! ### FH_ENCODE (41_frame_header.md R156) -/

/-- `(f & (2^(hi-lo+1) - 1)) << lo` as a word: one field in its place. The mask is that of the field's own width. -/
def placed {n : Nat} (v : BitVec n) (lo : Nat) : FrameWord :=
  (v.setWidth 64) <<< lo

/-- The eight words `V[k]` of a frame header: every field put back into its bit position. -/
def FrameHeader.words (h : FrameHeader) : List FrameWord :=
  [ placed h.w0.invalid 63 ||| placed h.w0.complex 62 ||| placed h.w0.epochStartSec 32 ||| placed h.w0.frameNumber
      0,
    placed h.w1.version 61 ||| placed h.w1.bitsPerSample 56 ||| placed h.w1.arrayLength 32 ||| placed
      h.w1.refEpochPeriod 26 ||| placed h.w1.sampleRepresentation 22 ||| placed h.w1.unassigned 16 ||| placed
      h.w1.stationId 0,
    placed h.w2.blockLength 48 ||| placed h.w2.channelsPerThread 32 ||| placed h.w2.freqGroup 16 ||| placed
      h.w2.beamId 0,
    placed h.w3.reserved16 48 ||| placed h.w3.period 32 ||| placed h.w3.reserved32 0,
    placed h.w4.intervalsPerPeriod 0,
    placed h.w5.syncSeq 32 ||| placed h.w5.reserved32 0,
    placed h.w6.extDataVersion 56 ||| placed h.w6.extUserData 0,
    placed h.w7.extUserData 0 ]

/-- The bytes of a value of `8*n` bits, most significant first: the inverse of `be`. -/
def beBytes : (n : Nat) → Nat → List Byte
  | 0, _ => []
  | n + 1, v => BitVec.ofNat 8 (v / 256 ^ n) :: beBytes n v

/-- `FH_ENCODE(f)`: the 64 bytes, each word most significant byte first (R156). -/
def FrameHeader.encode (h : FrameHeader) : List Byte :=
  h.words.flatMap fun v => beBytes 8 v.toNat

/-- The 42 bytes of the encapsulation headers, the inverse R195 speaks of. -/
def EncapHeaders.encode (h : EncapHeaders) : List Byte :=
  beBytes 6 h.eth.dst.toNat ++ beBytes 6 h.eth.src.toNat ++ beBytes 2 h.eth.len.toNat ++
  beBytes 1 (h.ip.version.toNat * 16 + h.ip.ihl.toNat) ++ beBytes 1 h.ip.tos.toNat ++ beBytes 2 h.ip.totalLength.toNat ++
  beBytes 2 h.ip.identification.toNat ++ beBytes 2 (h.ip.flags.toNat * 8192 + h.ip.fragOffset.toNat) ++
  beBytes 1 h.ip.ttl.toNat ++ beBytes 1 h.ip.protocol.toNat ++ beBytes 2 h.ip.checksum.toNat ++
  beBytes 4 h.ip.src.toNat ++ beBytes 4 h.ip.dst.toNat ++
  beBytes 2 h.udp.srcPort.toNat ++ beBytes 2 h.udp.dstPort.toNat ++ beBytes 2 h.udp.length.toNat ++
  beBytes 2 h.udp.checksum.toNat

/-! ### Text renderings (44_packet.md R216 to R218), as lists of characters -/

/-- A hexadecimal digit in lower case, the spec's choice (92_eei_decisions.md D24). -/
def hexDigit (d : Nat) : Char :=
  Char.ofNat (if d < 10 then 48 + d else 87 + d)

/-- The digits of `v` in base `b`, least significant first, at most `fuel` of them; none for 0. -/
def digitsOf (b : Nat) : (fuel : Nat) → Nat → List Nat
  | 0, _ => []
  | fuel + 1, v => if v = 0 then [] else v % b :: digitsOf b fuel (v / b)

/-- A number in base `b` without leading zeros, "0" for 0. -/
def numberText (b v : Nat) : List Char :=
  if v = 0 then ['0'] else ((digitsOf b (v.log2 + 1) v).reverse.map hexDigit)

/-- `HEXTEXT(v)` (R216). -/
def hexText (v : Nat) : List Char :=
  '0' :: 'x' :: numberText 16 v

/-- Two hexadecimal digits, the high nibble first (R217 `hex2`). -/
def hex2 (x : Nat) : List Char :=
  [hexDigit (x / 16 % 16), hexDigit (x % 16)]

/-- `MACTEXT(m)` (R217): the octets in wire order, colon-separated. -/
def macText (m : BitVec 48) : List Char :=
  ((beBytes 6 m.toNat).map fun x => hex2 x.toNat).intersperse [':'] |>.flatten

/-- `IP4TEXT(a)` (R218): dotted decimal in wire order. -/
def ip4Text (a : BitVec 32) : List Char :=
  ((beBytes 4 a.toNat).map fun x => numberText 10 x.toNat).intersperse ['.'] |>.flatten

end Sys2Proof.Machine
end

