-- ==== Sys2Proof/Machine/Step.lean ====
section
/-! DEFINITION. One step of the extractor, and where it takes its next operation from.

There is no instruction memory and nothing is fetched from the buffer (20_memory.md R66): the operation sequence is fixed by
the design and selected by `MODE` (30_encoding.md R101). What is still to run stands in `State.seq`, as operations: every
list of them has a meaning, and no step meets an illegal one (R80, 60_exceptions.md R230). How a
transaction comes to run (notes/assumptions/8.md): the host presents `BUF`, `LEN`, `MODE` and issues start
(`State.hostPresent`, `State.hostStart`); the next step accepts it (`State.acceptStart`), the one after runs the command. -/

namespace Sys2Proof.Machine

/-- One step: the next operation of the running transaction; else the pending start is accepted; else the extractor waits,
unchanged. Start while a transaction runs has no meaning (70_reset_and_hazards.md R267). -/
def step (s : State) : Host.Outcome State Fault Refusal :=
  match s.seq with
  | [] => if s.start then .next s.acceptStart else .next s
  | i :: rest => if s.start then .refused .startDuringRun else exec i { s with seq := rest }

/-- `s` with the operation that the decoder reads from a table word as the one that the next step runs, and no start
request, which that step would refuse; a word that encodes no operation leaves nothing to run (logs 1, 8). -/
def State.withFetchWord (s : State) (nbits w : Nat) : State :=
  { s with seq := (decodeTableWord nbits w).toList, start := false }

end Sys2Proof.Machine
end

