-- ==== Sys2Proof/Safety.lean ====
section
/-! DEFINITION. The terms the statements are written in: the layout of the buffer as the spec's address maps give it
(20_memory.md R59, R60, 30_encoding.md R81, R90 to R93, 43_payload.md R203), what each operation consumes and writes (30_encoding.md
R102), and what a safe run keeps. The layout is written from the container tables, not from the sequence of reads. -/

namespace Sys2Proof.Machine

/-! ### The layout -/

/-- The unsigned big-endian value of the `n` bytes at `a` (20_memory.md R52). -/
def State.beAt (s : State) (a n : Nat) : Nat := be (s.mem.bytes a n)

/-- Where a field lies: the first byte of its container in its header, the container's bytes, and the field's lowest bit in
the container (R81 for the frame header, whose containers are its words; R90, R91, R92, whose container is the whole
header). `ENCAP_V` lies in no container. -/
def Reg.place : Reg → Nat × Nat × Nat
  | .encapV => (0, 0, 0)
  | .ethDst => (0, 14, 64)
  | .ethSrc => (0, 14, 16)
  | .ethLen => (0, 14, 0)
  | .ipVersion => (0, 20, 156)
  | .ipIhl => (0, 20, 152)
  | .ipTos => (0, 20, 144)
  | .ipTotalLength => (0, 20, 128)
  | .ipIdentification => (0, 20, 112)
  | .ipFlags => (0, 20, 109)
  | .ipFragOffset => (0, 20, 96)
  | .ipTtl => (0, 20, 88)
  | .ipProtocol => (0, 20, 80)
  | .ipChecksum => (0, 20, 64)
  | .ipSrc => (0, 20, 32)
  | .ipDst => (0, 20, 0)
  | .udpSrcPort => (0, 8, 48)
  | .udpDstPort => (0, 8, 32)
  | .udpLength => (0, 8, 16)
  | .udpChecksum => (0, 8, 0)
  | .w0Invalid => (0, 8, 63)
  | .w0Complex => (0, 8, 62)
  | .w0EpochStartSec => (0, 8, 32)
  | .w0FrameNumber => (0, 8, 0)
  | .w1Version => (8, 8, 61)
  | .w1BitsPerSample => (8, 8, 56)
  | .w1ArrayLength => (8, 8, 32)
  | .w1RefEpochPeriod => (8, 8, 26)
  | .w1SampleRepresentation => (8, 8, 22)
  | .w1Unassigned => (8, 8, 16)
  | .w1StationId => (8, 8, 0)
  | .w2BlockLength => (16, 8, 48)
  | .w2ChannelsPerThread => (16, 8, 32)
  | .w2FreqGroup => (16, 8, 16)
  | .w2BeamId => (16, 8, 0)
  | .w3Reserved16 => (24, 8, 48)
  | .w3Period => (24, 8, 32)
  | .w3Reserved32 => (24, 8, 0)
  | .w4IntervalsPerPeriod => (32, 8, 0)
  | .w5SyncSeq => (40, 8, 32)
  | .w5Reserved32 => (40, 8, 0)
  | .w6ExtDataVersion => (48, 8, 56)
  | .w6ExtUserData => (48, 8, 0)
  | .w7ExtUserData => (56, 8, 0)

/-- Where the header of an encapsulation register begins, from the start of the encapsulation (R60); 0 for the others. -/
def Reg.headerOffset : Reg → Nat
  | .encapV => 0
  | .ethDst => 0
  | .ethSrc => 0
  | .ethLen => 0
  | .ipVersion => 14
  | .ipIhl => 14
  | .ipTos => 14
  | .ipTotalLength => 14
  | .ipIdentification => 14
  | .ipFlags => 14
  | .ipFragOffset => 14
  | .ipTtl => 14
  | .ipProtocol => 14
  | .ipChecksum => 14
  | .ipSrc => 14
  | .ipDst => 14
  | .udpSrcPort => 34
  | .udpDstPort => 34
  | .udpLength => 34
  | .udpChecksum => 34
  | .w0Invalid => 0
  | .w0Complex => 0
  | .w0EpochStartSec => 0
  | .w0FrameNumber => 0
  | .w1Version => 0
  | .w1BitsPerSample => 0
  | .w1ArrayLength => 0
  | .w1RefEpochPeriod => 0
  | .w1SampleRepresentation => 0
  | .w1Unassigned => 0
  | .w1StationId => 0
  | .w2BlockLength => 0
  | .w2ChannelsPerThread => 0
  | .w2FreqGroup => 0
  | .w2BeamId => 0
  | .w3Reserved16 => 0
  | .w3Period => 0
  | .w3Reserved32 => 0
  | .w4IntervalsPerPeriod => 0
  | .w5SyncSeq => 0
  | .w5Reserved32 => 0
  | .w6ExtDataVersion => 0
  | .w6ExtUserData => 0
  | .w7ExtUserData => 0

/-- The value the layout gives a field when its header begins at `base`: `v[hi:lo]` of its container (00_scope.md R13). -/
def State.fieldAt (s : State) (base : Nat) (r : Reg) : BitVec r.width :=
  BitVec.ofNat r.width (s.beAt (base + r.place.1) r.place.2.1 / 2 ^ r.place.2.2)

/-- The linear index of a coordinate (43_payload.md R203). -/
def Geometry.linear (g : Geometry) (b c p : Nat) : Nat := (b * g.nCh + c) * g.nPol + p

/-- The sample the layout puts at a coordinate when the payload begins at `base` (R203). -/
def State.payloadSample (s : State) (base b c p : Nat) : Component × Component :=
  (BitVec.ofNat 16 (s.beAt (base + 4 * s.geom.linear b c p) 2),
   BitVec.ofNat 16 (s.beAt (base + 4 * s.geom.linear b c p + 2) 2))

/-- Where the frame header begins in each mode (R59, R60). -/
def Mode.headerBase : Mode → Nat
  | .bare => 0
  | .encap => 42

/-- The shortest buffer with which a transaction succeeds (20_memory.md R61). -/
def Mode.neededBytes (m : Mode) (g : Geometry) : Nat := m.headerBase + 64 + g.payloadBytes

end Sys2Proof.Machine

namespace Sys2Proof

open Sys2Proof.Machine

/-! ### What an operation consumes and writes -/

/-- The bytes an operation adds to `OFF` when it succeeds (10_state.md R26, 20_memory.md R56), for the operations that run at
the cursor; the commands and `CUR.INIT` set the cursor themselves. -/
def Instr.needs (g : Geometry) : Instr → Nat
  | .curInit => 0
  | .read n => n
  | .rdBe n => n
  | .fhRdw _ => 8
  | .fhW0Invalid => 0
  | .fhW0Complex => 0
  | .fhW0Epoch => 0
  | .fhW0Frame => 0
  | .fhW1Version => 0
  | .fhW1Bps => 0
  | .fhW1Arrlen => 0
  | .fhW1Refep => 0
  | .fhW1Srep => 0
  | .fhW1Unassigned => 0
  | .fhW1Station => 0
  | .fhW2Blklen => 0
  | .fhW2Chpt => 0
  | .fhW2Fgroup => 0
  | .fhW2Beam => 0
  | .fhW3Rsvd16 => 0
  | .fhW3Period => 0
  | .fhW3Rsvd32 => 0
  | .fhW4Ipp => 0
  | .fhW5Sync => 0
  | .fhW5Rsvd32 => 0
  | .fhW6Edv => 0
  | .fhW6Eud => 0
  | .fhW7Eud => 0
  | .decFhdr => 64
  | .ethDst => 6
  | .ethSrc => 6
  | .ethLen => 2
  | .decEth => 14
  | .ipVersion => 0
  | .ipIhl => 0
  | .ipTos => 1
  | .ipTotlen => 2
  | .ipId => 2
  | .ipFlags => 0
  | .ipFrag => 0
  | .ipTtl => 1
  | .ipProto => 1
  | .ipCsum => 2
  | .ipSrc => 4
  | .ipDst => 4
  | .decIpv4 => 20
  | .udpSport => 2
  | .udpDport => 2
  | .udpLen => 2
  | .udpCsum => 2
  | .decUdp => 8
  | .decEncap => 42
  | .smpRe => 2
  | .smpIm => 2
  | .decPayload => g.payloadBytes
  | .decodeBare => 0
  | .decodeEncap => 0

/-- The result register a field operation writes (30_encoding.md R102, column "writes"). -/
def Instr.target : Instr → Option Reg
  | .curInit => none
  | .read _ => none
  | .rdBe _ => none
  | .fhRdw _ => none
  | .fhW0Invalid => some .w0Invalid
  | .fhW0Complex => some .w0Complex
  | .fhW0Epoch => some .w0EpochStartSec
  | .fhW0Frame => some .w0FrameNumber
  | .fhW1Version => some .w1Version
  | .fhW1Bps => some .w1BitsPerSample
  | .fhW1Arrlen => some .w1ArrayLength
  | .fhW1Refep => some .w1RefEpochPeriod
  | .fhW1Srep => some .w1SampleRepresentation
  | .fhW1Unassigned => some .w1Unassigned
  | .fhW1Station => some .w1StationId
  | .fhW2Blklen => some .w2BlockLength
  | .fhW2Chpt => some .w2ChannelsPerThread
  | .fhW2Fgroup => some .w2FreqGroup
  | .fhW2Beam => some .w2BeamId
  | .fhW3Rsvd16 => some .w3Reserved16
  | .fhW3Period => some .w3Period
  | .fhW3Rsvd32 => some .w3Reserved32
  | .fhW4Ipp => some .w4IntervalsPerPeriod
  | .fhW5Sync => some .w5SyncSeq
  | .fhW5Rsvd32 => some .w5Reserved32
  | .fhW6Edv => some .w6ExtDataVersion
  | .fhW6Eud => some .w6ExtUserData
  | .fhW7Eud => some .w7ExtUserData
  | .decFhdr => none
  | .ethDst => some .ethDst
  | .ethSrc => some .ethSrc
  | .ethLen => some .ethLen
  | .decEth => none
  | .ipVersion => some .ipVersion
  | .ipIhl => some .ipIhl
  | .ipTos => some .ipTos
  | .ipTotlen => some .ipTotalLength
  | .ipId => some .ipIdentification
  | .ipFlags => some .ipFlags
  | .ipFrag => some .ipFragOffset
  | .ipTtl => some .ipTtl
  | .ipProto => some .ipProtocol
  | .ipCsum => some .ipChecksum
  | .ipSrc => some .ipSrc
  | .ipDst => some .ipDst
  | .decIpv4 => none
  | .udpSport => some .udpSrcPort
  | .udpDport => some .udpDstPort
  | .udpLen => some .udpLength
  | .udpCsum => some .udpChecksum
  | .decUdp => none
  | .decEncap => none
  | .smpRe => none
  | .smpIm => none
  | .decPayload => none
  | .decodeBare => none
  | .decodeEncap => none

/-- The result registers an operation may write (R102, column "writes"). -/
def Instr.writes (r : Reg) : Instr → Bool
  | .curInit => false
  | .read _ => false
  | .rdBe _ => false
  | .fhRdw _ => false
  | .fhW0Invalid => r == .w0Invalid
  | .fhW0Complex => r == .w0Complex
  | .fhW0Epoch => r == .w0EpochStartSec
  | .fhW0Frame => r == .w0FrameNumber
  | .fhW1Version => r == .w1Version
  | .fhW1Bps => r == .w1BitsPerSample
  | .fhW1Arrlen => r == .w1ArrayLength
  | .fhW1Refep => r == .w1RefEpochPeriod
  | .fhW1Srep => r == .w1SampleRepresentation
  | .fhW1Unassigned => r == .w1Unassigned
  | .fhW1Station => r == .w1StationId
  | .fhW2Blklen => r == .w2BlockLength
  | .fhW2Chpt => r == .w2ChannelsPerThread
  | .fhW2Fgroup => r == .w2FreqGroup
  | .fhW2Beam => r == .w2BeamId
  | .fhW3Rsvd16 => r == .w3Reserved16
  | .fhW3Period => r == .w3Period
  | .fhW3Rsvd32 => r == .w3Reserved32
  | .fhW4Ipp => r == .w4IntervalsPerPeriod
  | .fhW5Sync => r == .w5SyncSeq
  | .fhW5Rsvd32 => r == .w5Reserved32
  | .fhW6Edv => r == .w6ExtDataVersion
  | .fhW6Eud => r == .w6ExtUserData
  | .fhW7Eud => r == .w7ExtUserData
  | .decFhdr => r.isFrame
  | .ethDst => r == .ethDst
  | .ethSrc => r == .ethSrc
  | .ethLen => r == .ethLen
  | .decEth => r == .ethDst || r == .ethSrc || r == .ethLen
  | .ipVersion => r == .ipVersion
  | .ipIhl => r == .ipIhl
  | .ipTos => r == .ipTos
  | .ipTotlen => r == .ipTotalLength
  | .ipId => r == .ipIdentification
  | .ipFlags => r == .ipFlags
  | .ipFrag => r == .ipFragOffset
  | .ipTtl => r == .ipTtl
  | .ipProto => r == .ipProtocol
  | .ipCsum => r == .ipChecksum
  | .ipSrc => r == .ipSrc
  | .ipDst => r == .ipDst
  | .decIpv4 => r.isEncap && r.headerOffset == 14
  | .udpSport => r == .udpSrcPort
  | .udpDport => r == .udpDstPort
  | .udpLen => r == .udpLength
  | .udpCsum => r == .udpChecksum
  | .decUdp => r.isEncap && r.headerOffset == 34
  | .decEncap => r.isEncap
  | .smpRe => false
  | .smpIm => false
  | .decPayload => false
  | .decodeBare => true
  | .decodeEncap => true

/-- The operations of a stage's expansion, in order (30_encoding.md R103); none for an operation that is no stage of fixed
length. -/
def Instr.expansion : Instr → List Instr
  | .decEth => [.ethDst, .ethSrc, .ethLen]
  | .decIpv4 => [.rdBe 1, .ipVersion, .ipIhl, .ipTos, .ipTotlen, .ipId, .rdBe 2, .ipFlags, .ipFrag, .ipTtl, .ipProto, .ipCsum,
      .ipSrc, .ipDst]
  | .decUdp => [.udpSport, .udpDport, .udpLen, .udpCsum]
  | .decEncap => [.decEth, .decIpv4, .decUdp]
  | .decFhdr => [.fhRdw 0, .fhRdw 1, .fhRdw 2, .fhRdw 3, .fhRdw 4, .fhRdw 5, .fhRdw 6, .fhRdw 7,
      .fhW0Invalid, .fhW0Complex, .fhW0Epoch, .fhW0Frame, .fhW1Version, .fhW1Bps, .fhW1Arrlen, .fhW1Refep,
      .fhW1Srep, .fhW1Unassigned, .fhW1Station, .fhW2Blklen, .fhW2Chpt, .fhW2Fgroup, .fhW2Beam, .fhW3Rsvd16,
      .fhW3Period, .fhW3Rsvd32, .fhW4Ipp, .fhW5Sync, .fhW5Rsvd32, .fhW6Edv, .fhW6Eud, .fhW7Eud ]
  | .curInit => []
  | .read _ => []
  | .rdBe _ => []
  | .fhRdw _ => []
  | .fhW0Invalid => []
  | .fhW0Complex => []
  | .fhW0Epoch => []
  | .fhW0Frame => []
  | .fhW1Version => []
  | .fhW1Bps => []
  | .fhW1Arrlen => []
  | .fhW1Refep => []
  | .fhW1Srep => []
  | .fhW1Unassigned => []
  | .fhW1Station => []
  | .fhW2Blklen => []
  | .fhW2Chpt => []
  | .fhW2Fgroup => []
  | .fhW2Beam => []
  | .fhW3Rsvd16 => []
  | .fhW3Period => []
  | .fhW3Rsvd32 => []
  | .fhW4Ipp => []
  | .fhW5Sync => []
  | .fhW5Rsvd32 => []
  | .fhW6Edv => []
  | .fhW6Eud => []
  | .fhW7Eud => []
  | .ethDst => []
  | .ethSrc => []
  | .ethLen => []
  | .ipVersion => []
  | .ipIhl => []
  | .ipTos => []
  | .ipTotlen => []
  | .ipId => []
  | .ipFlags => []
  | .ipFrag => []
  | .ipTtl => []
  | .ipProto => []
  | .ipCsum => []
  | .ipSrc => []
  | .ipDst => []
  | .udpSport => []
  | .udpDport => []
  | .udpLen => []
  | .udpCsum => []
  | .smpRe => []
  | .smpIm => []
  | .decPayload => []
  | .decodeBare => []
  | .decodeEncap => []

end Sys2Proof

namespace Sys2Proof.Machine

/-! ### Safe runs -/

/-- Everything the host owns and the build fixes is as before (20_memory.md R67, R63, 10_state.md R23). -/
def State.SameInputs (s t : State) : Prop :=
  t.mem = s.mem ∧ t.len = s.len ∧ t.mode = s.mode ∧ t.geom = s.geom ∧ t.start = s.start

/-- No result holds a value (10_state.md R28). -/
def State.NoResults (s : State) : Prop :=
  s.f = RegFile.absent ∧ s.samples = SampleArray.absent s.geom

/-- `t` is what taking TruncatedBuffer leaves of a run that was in `s` (60_exceptions.md R237): nothing is exposed, nothing is
left to run, the inputs are as before. -/
def State.FailedFrom (s t : State) : Prop :=
  t.status = .errTruncated ∧ t.NoResults ∧ t.seq = [] ∧ s.SameInputs t

/-- Everything outside the scalar result registers, the cursor and what it last returned is as before. -/
def State.SameElse (s t : State) : Prop :=
  s.SameInputs t ∧ t.status = s.status ∧ t.samples = s.samples ∧ t.w = s.w ∧ t.coord = s.coord ∧ t.seq = s.seq

/-- The state a successful `READ(n)` leaves (40_cursor.md R120). -/
def State.afterRead (s : State) (n : Nat) : State :=
  { s with off := s.off + n, retBytes := some (s.mem.bytes s.off n) }

/-- The state a successful `RD_BE(n)` leaves (R121). -/
def State.afterReadBe (s : State) (n : Nat) : State :=
  { s.afterRead n with rdbe := some ⟨n, s.beAt s.off n⟩ }

/-- The result is complete for the mode it names (R28, 44_packet.md R213): every frame-header register and every sample of
the extents has a value, `ENCAP_V` is the mode, and the encapsulation registers have values exactly in ENCAP mode. -/
def State.Complete (s : State) : Prop :=
  ∃ m : Mode, s.f.get .encapV = some m.bit ∧
    (∀ r, r.isFrame = true → (s.f.get r).isSome = true) ∧
    (∀ r, r.isEncap = true → (s.f.get r).isSome = decide (m = .encap)) ∧
    (∀ b c p, (b < s.geom.nBlk ∧ c < s.geom.nCh ∧ p < s.geom.nPol) →
      ∃ v, (s.samples.at b c p).bind Sample.pair = some v) ∧
    (∀ b c p, ¬ (b < s.geom.nBlk ∧ c < s.geom.nCh ∧ p < s.geom.nPol) → s.samples.at b c p = none)

/-- What a run driven by the host keeps at every step: the buffer is in canonical form and within `LEN`; the reserved status
is never there (60_exceptions.md R233); what is still to run is nothing or one command, before which `STATUS` is IDLE; while a
run is in progress `OFF <= LEN` (10_state.md R25); a result is complete exactly while `STATUS = OK` and without any value
otherwise (R28, R237). -/
def State.Inv (s : State) : Prop :=
  s.mem.wf = true ∧ (∀ c ∈ s.mem, c.1 < s.len) ∧
  s.status ≠ .errMalformed ∧
  (s.seq = [] ∨ ((∃ m : Mode, s.seq = [m.command]) ∧ s.status = .idle)) ∧
  (s.running = true → s.off ≤ s.len) ∧
  (s.status ≠ .ok → s.NoResults) ∧
  (s.status = .ok → s.Complete)

/-- A run has ended well: `STATUS = OK` (44_packet.md R222). -/
def State.goodEnd (s : State) : Bool := !s.running && s.status == .ok

/-- A run has ended by its error (R222): a result, not a crash. -/
def State.failedEnd (s : State) : Bool := !s.running && s.status == .errTruncated

end Sys2Proof.Machine
end

