-- ==== Sys2Proof/Certificates/Slice0/Obligations.lean ====
section
/-! DEFINITION. The statements for the provers. Each is about the machine: what an operation does and leaves alone, what taking
the exception leaves, what every step keeps, and that the sequence of reads gives what the layout of the buffer says. A value
or a behaviour that the model chose is named as such in the statement's comment, with its log entry (notes/assumptions). -/

open Sys2Proof Sys2Proof.Machine

/-- State.reset has STATUS = IDLE, OFF = 0, no value in any result register, word W[k] or sample part, the geometry of the
build, and no run in progress (its inputs are the model's choice, log 4, and not part of the statement). A reset of
any state gives the same STATUS, OFF, registers, words and no run in progress, no sample value, and the geometry as it
was; that it leaves the host's inputs alone is the model's reading (log 4). (10_state.md R38, 70_reset_and_hazards.md
R260) -/
def Obligations.ResetLeavesNoOutcome : Prop :=
  (State.reset.status = .idle ∧ State.reset.off = 0 ∧ (∀ r, State.reset.f.get r = none) ∧
    (∀ k, State.reset.word k = none) ∧ (∀ b c p e, State.reset.samples.at b c p = some e → e = ⟨none, none⟩) ∧
    State.reset.geom = ⟨Config.nBlk, Config.nCh, Config.nPol⟩ ∧ State.reset.running = false) ∧
  (∀ s : State, s.hostReset.status = .idle ∧ s.hostReset.off = 0 ∧ (∀ r, s.hostReset.f.get r = none) ∧
    (∀ k, s.hostReset.word k = none) ∧ (∀ b c p e, s.hostReset.samples.at b c p = some e → e = ⟨none, none⟩) ∧
    s.hostReset.running = false ∧ s.hostReset.mem = s.mem ∧ s.hostReset.len = s.len ∧ s.hostReset.mode = s.mode ∧
    s.hostReset.geom = s.geom)

/-- For every state with no run in progress, two steps after reset and start answer exactly what two steps after start
alone answer: nothing of earlier transactions carries over. The form is the model's: that a run takes two steps (log
8), that the whole states agree, W, the latches and the loop counters included (a start clears them, log 11), and that
a reset leaves the host's inputs (log 4). (70_reset_and_hazards.md R260, 60_exceptions.md R242, 44_packet.md R220) -/
def Obligations.ResetThenStartRunsAsStartAlone : Prop :=
  ∀ s t u : State, s.hostReset.hostStart = .ok t → s.hostStart = .ok u →
  Host.Core.run Sys2Proof.core 2 t = Host.Core.run Sys2Proof.core 2 u

/-- For every state, CUR.INIT answers the state with OFF = 0 and every other field as before. (40_cursor.md R122) -/
def Obligations.CursorInitSetsOffsetToZero : Prop :=
  ∀ s : State, exec .curInit s = .next { s with off := 0 }

/-- With OFF <= LEN: if OFF + n <= LEN, READ n answers the state in which OFF is n greater and the returned bytes are
BUF[OFF] to BUF[OFF+n-1], lowest address first, everything else as before; otherwise it takes TruncatedBuffer with OFF
as it was: status, results and the rest of the run change as R237 says and nothing is delivered. (R120) -/
def Obligations.ReadDeliversNextBytesOrTruncates : Prop :=
  ∀ (s : State) (n : Nat), s.off ≤ s.len →
  (s.off + n ≤ s.len →
    exec (.read n) s = .next { s with off := s.off + n, retBytes := some (s.mem.bytes s.off n) } ∧
    (s.mem.bytes s.off n).length = n ∧
    ∀ i, i < n → (s.mem.bytes s.off n)[i]? = s.byteAt (s.off + i)) ∧
  (s.len < s.off + n →
    exec (.read n) s =
      .next { s with f := RegFile.absent, samples := SampleArray.absent s.geom, status := .errTruncated, seq := [] })

/-- For every n: if n bytes remain, RD_BE n answers the state after READ n in which the returned value is be of the bytes
read, a value below 256^n; if not, it takes TruncatedBuffer. (R121) -/
def Obligations.ReadBigEndianReturnsValue : Prop :=
  ∀ (s : State) (n : Nat),
  (n ≤ s.len - s.off →
    exec (.rdBe n) s = .next { s with off := s.off + n, retBytes := some (s.mem.bytes s.off n),
                                      rdbe := some ⟨n, be (s.mem.bytes s.off n)⟩ } ∧
    be (s.mem.bytes s.off n) < 256 ^ n) ∧
  (s.len - s.off < n → exec (.rdBe n) s = .next s.takeTruncated)

/-- For every buffer, address a and count n, the big-endian value of the n bytes at a is the sum over i below n of
BUF[a+i] * 256^(n-1-i). (20_memory.md R52, 00_scope.md R13) -/
def Obligations.BigEndianValueIsWeightedSum : Prop :=
  ∀ (m : Memory) (a n : Nat),
  be (m.bytes a n) = ∑ i ∈ Finset.range n, (m.get (a + i)).toNat * 256 ^ (n - 1 - i)

/-- For every container of n bytes, every byte index i below n and bit j below 8: that bit of the container's value is the
bit of the byte; in particular bit b of the word at a header base and word k is bit b mod 8 of the byte at 8*k + 7 -
(b div 8) from the base. (R53) -/
def Obligations.BitOfByteIsBitOfContainer : Prop :=
  (∀ (m : Memory) (a n i j : Nat), i < n → j < 8 →
    (be (m.bytes a n)).testBit (8 * (n - 1 - i) + j) = (m.get (a + i)).getLsbD j) ∧
  (∀ (m : Memory) (base k b : Nat), k < 8 → b < 64 →
    (be (m.bytes (base + 8 * k) 8)).testBit b = (m.get (base + (8 * k + 7 - b / 8))).getLsbD (b % 8))

/-- For every list of counts put in sequence at OFF = 0 with no failure pending: if the counts sum to at most LEN,
running them leaves OFF at the sum, STATUS as it was and, as the last read's bytes, those after all earlier counts; if
the sum exceeds LEN, the run ends with ERR_TRUNCATED and no result. That single reads stand in sequence and
take one step each is the model's form (log 8). (40_cursor.md R123) -/
def Obligations.ReadsRunInSequence : Prop :=
  ∀ (s : State) (ns : List Nat) (n : Nat), s.off = 0 → s.start = false → s.status = .idle →
  (ns.sum + n ≤ s.len →
    ∃ t, Host.Core.run Sys2Proof.core (ns.length + 1)
        { s with seq := (ns ++ [n]).map .read } = .next t ∧
      t.off = ns.sum + n ∧ t.status = .idle ∧ t.retBytes = some (s.mem.bytes ns.sum n)) ∧
  (s.len < ns.sum + n →
    ∃ t, Host.Core.run Sys2Proof.core (ns.length + 1)
        { s with seq := (ns ++ [n]).map .read } = .next t ∧
      t.status = .errTruncated ∧ t.NoResults)

/-- When a + b bytes remain, READ a followed by READ b and READ (a+b) alone all answer a next state, leave the same OFF,
and the two deliveries joined are the one delivery. (40_cursor.md R124) -/
def Obligations.SplitReadEqualsWholeRead : Prop :=
  ∀ (s : State) (a b : Nat), a + b ≤ s.len - s.off →
  ∃ t u v x y, exec (.read a) s = .next t ∧ exec (.read b) t = .next u ∧ exec (.read (a + b)) s = .next v ∧
    t.retBytes = some x ∧ u.retBytes = some y ∧ v.retBytes = some (x ++ y) ∧ u.off = v.off

/-- For every state in which W[k] holds v, each field operation of word 0 answers the state in which its register
(w0.invalid, w0.complex, w0.epoch_start_sec, w0.frame_number) holds (v >> lo) mod 2^(hi-lo+1) and everything else is
as before. (R132, R133, R134, R135) -/
def Obligations.WordZeroFieldsAreCut : Prop :=
  ∀ (s : State) (v : FrameWord),
  (s.word 0 = some v →
    exec .fhW0Invalid s = .next (s.putReg .w0Invalid (some (BitVec.ofNat 1 (v.toNat / 2 ^ 63)))) ∧
    exec .fhW0Complex s = .next (s.putReg .w0Complex (some (BitVec.ofNat 1 (v.toNat / 2 ^ 62)))) ∧
    exec .fhW0Epoch s = .next (s.putReg .w0EpochStartSec (some (BitVec.ofNat 30 (v.toNat / 2 ^ 32)))) ∧
    exec .fhW0Frame s = .next (s.putReg .w0FrameNumber (some (BitVec.ofNat 32 (v.toNat / 2 ^ 0)))))

/-- For every state in which W[k] holds v, each field operation of word 1 answers the state in which its register
(w1.version, w1.bits_per_sample, w1.array_length, w1.ref_epoch_period, w1.sample_representation, w1.unassigned,
w1.station_id) holds (v >> lo) mod 2^(hi-lo+1) and everything else is as before. (R136, R137, R138, R139, R140, R141,
R142) -/
def Obligations.WordOneFieldsAreCut : Prop :=
  ∀ (s : State) (v : FrameWord),
  (s.word 1 = some v →
    exec .fhW1Version s = .next (s.putReg .w1Version (some (BitVec.ofNat 3 (v.toNat / 2 ^ 61)))) ∧
    exec .fhW1Bps s = .next (s.putReg .w1BitsPerSample (some (BitVec.ofNat 5 (v.toNat / 2 ^ 56)))) ∧
    exec .fhW1Arrlen s = .next (s.putReg .w1ArrayLength (some (BitVec.ofNat 24 (v.toNat / 2 ^ 32)))) ∧
    exec .fhW1Refep s = .next (s.putReg .w1RefEpochPeriod (some (BitVec.ofNat 6 (v.toNat / 2 ^ 26)))) ∧
    exec .fhW1Srep s = .next (s.putReg .w1SampleRepresentation (some (BitVec.ofNat 4 (v.toNat / 2 ^ 22)))) ∧
    exec .fhW1Unassigned s = .next (s.putReg .w1Unassigned (some (BitVec.ofNat 6 (v.toNat / 2 ^ 16)))) ∧
    exec .fhW1Station s = .next (s.putReg .w1StationId (some (BitVec.ofNat 16 (v.toNat / 2 ^ 0)))))

/-- For every state in which W[k] holds v, each field operation of words 2 and 3 answers the state in which its register
(w2.block_length, w2.channels_per_thread, w2.freq_group, w2.beam_id, w3.reserved16, w3.period, w3.reserved32) holds (v
>> lo) mod 2^(hi-lo+1) and everything else is as before. (R143, R144, R145, R146, R147, R148, R149) -/
def Obligations.WordsTwoAndThreeFieldsAreCut : Prop :=
  ∀ (s : State) (v : FrameWord),
  (s.word 2 = some v →
    exec .fhW2Blklen s = .next (s.putReg .w2BlockLength (some (BitVec.ofNat 16 (v.toNat / 2 ^ 48)))) ∧
    exec .fhW2Chpt s = .next (s.putReg .w2ChannelsPerThread (some (BitVec.ofNat 16 (v.toNat / 2 ^ 32)))) ∧
    exec .fhW2Fgroup s = .next (s.putReg .w2FreqGroup (some (BitVec.ofNat 16 (v.toNat / 2 ^ 16)))) ∧
    exec .fhW2Beam s = .next (s.putReg .w2BeamId (some (BitVec.ofNat 16 (v.toNat / 2 ^ 0))))) ∧
  (s.word 3 = some v →
    exec .fhW3Rsvd16 s = .next (s.putReg .w3Reserved16 (some (BitVec.ofNat 16 (v.toNat / 2 ^ 48)))) ∧
    exec .fhW3Period s = .next (s.putReg .w3Period (some (BitVec.ofNat 16 (v.toNat / 2 ^ 32)))) ∧
    exec .fhW3Rsvd32 s = .next (s.putReg .w3Reserved32 (some (BitVec.ofNat 32 (v.toNat / 2 ^ 0)))))

/-- For every state in which W[k] holds v, each field operation of words 4 and 5 and 6 and 7 answers the state in which
its register (w4.intervals_per_period, w5.sync_seq, w5.reserved32, w6.ext_data_version, w6.ext_user_data,
w7.ext_user_data) holds (v >> lo) mod 2^(hi-lo+1) and everything else is as before. (R150, R151, R152, R153, R154,
R155) -/
def Obligations.WordsFourToSevenFieldsAreCut : Prop :=
  ∀ (s : State) (v : FrameWord),
  (s.word 4 = some v →
    exec .fhW4Ipp s = .next (s.putReg .w4IntervalsPerPeriod (some (BitVec.ofNat 64 (v.toNat / 2 ^ 0))))) ∧
  (s.word 5 = some v →
    exec .fhW5Sync s = .next (s.putReg .w5SyncSeq (some (BitVec.ofNat 32 (v.toNat / 2 ^ 32)))) ∧
    exec .fhW5Rsvd32 s = .next (s.putReg .w5Reserved32 (some (BitVec.ofNat 32 (v.toNat / 2 ^ 0))))) ∧
  (s.word 6 = some v →
    exec .fhW6Edv s = .next (s.putReg .w6ExtDataVersion (some (BitVec.ofNat 8 (v.toNat / 2 ^ 56)))) ∧
    exec .fhW6Eud s = .next (s.putReg .w6ExtUserData (some (BitVec.ofNat 56 (v.toNat / 2 ^ 0))))) ∧
  (s.word 7 = some v →
    exec .fhW7Eud s = .next (s.putReg .w7ExtUserData (some (BitVec.ofNat 64 (v.toNat / 2 ^ 0)))))

/-- The model's choice (log 3): where W[k] holds no value, each of the 24 field operations answers the state in which its
register has no value and everything else is as before. (10_state.md R35, 10_state.md R38) -/
def Obligations.FieldOfUnreadWordHasNoValue : Prop :=
  ∀ s : State,
  (s.word 0 = none →
    exec .fhW0Invalid s = .next (s.putReg .w0Invalid none) ∧
    exec .fhW0Complex s = .next (s.putReg .w0Complex none) ∧
    exec .fhW0Epoch s = .next (s.putReg .w0EpochStartSec none) ∧
    exec .fhW0Frame s = .next (s.putReg .w0FrameNumber none)) ∧
  (s.word 1 = none →
    exec .fhW1Version s = .next (s.putReg .w1Version none) ∧
    exec .fhW1Bps s = .next (s.putReg .w1BitsPerSample none) ∧
    exec .fhW1Arrlen s = .next (s.putReg .w1ArrayLength none) ∧
    exec .fhW1Refep s = .next (s.putReg .w1RefEpochPeriod none) ∧
    exec .fhW1Srep s = .next (s.putReg .w1SampleRepresentation none) ∧
    exec .fhW1Unassigned s = .next (s.putReg .w1Unassigned none) ∧
    exec .fhW1Station s = .next (s.putReg .w1StationId none)) ∧
  (s.word 2 = none →
    exec .fhW2Blklen s = .next (s.putReg .w2BlockLength none) ∧
    exec .fhW2Chpt s = .next (s.putReg .w2ChannelsPerThread none) ∧
    exec .fhW2Fgroup s = .next (s.putReg .w2FreqGroup none) ∧
    exec .fhW2Beam s = .next (s.putReg .w2BeamId none)) ∧
  (s.word 3 = none →
    exec .fhW3Rsvd16 s = .next (s.putReg .w3Reserved16 none) ∧
    exec .fhW3Period s = .next (s.putReg .w3Period none) ∧
    exec .fhW3Rsvd32 s = .next (s.putReg .w3Reserved32 none)) ∧
  (s.word 4 = none →
    exec .fhW4Ipp s = .next (s.putReg .w4IntervalsPerPeriod none)) ∧
  (s.word 5 = none →
    exec .fhW5Sync s = .next (s.putReg .w5SyncSeq none) ∧
    exec .fhW5Rsvd32 s = .next (s.putReg .w5Reserved32 none)) ∧
  (s.word 6 = none →
    exec .fhW6Edv s = .next (s.putReg .w6ExtDataVersion none) ∧
    exec .fhW6Eud s = .next (s.putReg .w6ExtUserData none)) ∧
  (s.word 7 = none →
    exec .fhW7Eud s = .next (s.putReg .w7ExtUserData none))

/-- For every word number k: if 8 bytes remain, FH.RDW k answers a state in which W[k] is the big-endian value of the 8
bytes at OFF, every other W is as before, OFF is 8 greater and every result register, sample, status and input is as
before; otherwise it takes TruncatedBuffer. (41_frame_header.md R131) -/
def Obligations.WordReadFillsItsWord : Prop :=
  ∀ (s : State) (k : Fin 8),
  (8 ≤ s.len - s.off →
    ∃ t, exec (.fhRdw k) s = .next t ∧ t.word k = some (BitVec.ofNat 64 (s.beAt s.off 8)) ∧
      (∀ j, j ≠ k → t.word j = s.word j) ∧ t.off = s.off + 8 ∧ t.f = s.f ∧ t.samples = s.samples ∧ t.status = s.status ∧
      t.coord = s.coord ∧ t.seq = s.seq ∧ s.SameInputs t) ∧
  (s.len - s.off < 8 → exec (.fhRdw k) s = .next s.takeTruncated)

/-- When enough bytes remain, each of ETH.DST, ETH.SRC, ETH.LEN, UDP.SPORT, UDP.DPORT, UDP.LEN, UDP.CSUM answers the state
after a read of its width in which its register is the big-endian value of the bytes at OFF and everything else is as
before (the latches of what was returned aside, log 6). (42_encapsulation.md R172, 42_encapsulation.md R173,
42_encapsulation.md R174, 42_encapsulation.md R189, 42_encapsulation.md R190, 42_encapsulation.md R191,
42_encapsulation.md R192) -/
def Obligations.EthernetAndUdpFieldsAreRead : Prop :=
  ∀ s : State,
  (6 ≤ s.len - s.off → exec .ethDst s =
    .next ((s.afterRead 6).putReg .ethDst (some (BitVec.ofNat 48 (s.beAt s.off 6))))) ∧
  (6 ≤ s.len - s.off → exec .ethSrc s =
    .next ((s.afterRead 6).putReg .ethSrc (some (BitVec.ofNat 48 (s.beAt s.off 6))))) ∧
  (2 ≤ s.len - s.off → exec .ethLen s =
    .next ((s.afterReadBe 2).putReg .ethLen (some (BitVec.ofNat 16 (s.beAt s.off 2))))) ∧
  (2 ≤ s.len - s.off → exec .udpSport s =
    .next ((s.afterReadBe 2).putReg .udpSrcPort (some (BitVec.ofNat 16 (s.beAt s.off 2))))) ∧
  (2 ≤ s.len - s.off → exec .udpDport s =
    .next ((s.afterReadBe 2).putReg .udpDstPort (some (BitVec.ofNat 16 (s.beAt s.off 2))))) ∧
  (2 ≤ s.len - s.off → exec .udpLen s =
    .next ((s.afterReadBe 2).putReg .udpLength (some (BitVec.ofNat 16 (s.beAt s.off 2))))) ∧
  (2 ≤ s.len - s.off → exec .udpCsum s =
    .next ((s.afterReadBe 2).putReg .udpChecksum (some (BitVec.ofNat 16 (s.beAt s.off 2)))))

/-- When enough bytes remain, IP.TOS, IP.TOTLEN, IP.ID, IP.TTL, IP.PROTO, IP.CSUM, IP.SRC and IP.DST each answer the state
after a read of 1, 2, 2, 1, 1, 2, 4 and 4 bytes in which their register is the big-endian value of those bytes and
everything else is as before. (42_encapsulation.md R178, 42_encapsulation.md R179, 42_encapsulation.md R180,
42_encapsulation.md R183, 42_encapsulation.md R184, 42_encapsulation.md R185, 42_encapsulation.md R186,
42_encapsulation.md R187) -/
def Obligations.Ipv4FieldsAreRead : Prop :=
  ∀ s : State,
  (1 ≤ s.len - s.off → exec .ipTos s =
    .next ((s.afterReadBe 1).putReg .ipTos (some (BitVec.ofNat 8 (s.beAt s.off 1))))) ∧
  (2 ≤ s.len - s.off → exec .ipTotlen s =
    .next ((s.afterReadBe 2).putReg .ipTotalLength (some (BitVec.ofNat 16 (s.beAt s.off 2))))) ∧
  (2 ≤ s.len - s.off → exec .ipId s =
    .next ((s.afterReadBe 2).putReg .ipIdentification (some (BitVec.ofNat 16 (s.beAt s.off 2))))) ∧
  (1 ≤ s.len - s.off → exec .ipTtl s =
    .next ((s.afterReadBe 1).putReg .ipTtl (some (BitVec.ofNat 8 (s.beAt s.off 1))))) ∧
  (1 ≤ s.len - s.off → exec .ipProto s =
    .next ((s.afterReadBe 1).putReg .ipProtocol (some (BitVec.ofNat 8 (s.beAt s.off 1))))) ∧
  (2 ≤ s.len - s.off → exec .ipCsum s =
    .next ((s.afterReadBe 2).putReg .ipChecksum (some (BitVec.ofNat 16 (s.beAt s.off 2))))) ∧
  (4 ≤ s.len - s.off → exec .ipSrc s =
    .next ((s.afterRead 4).putReg .ipSrc (some (BitVec.ofNat 32 (s.beAt s.off 4))))) ∧
  (4 ≤ s.len - s.off → exec .ipDst s =
    .next ((s.afterRead 4).putReg .ipDst (some (BitVec.ofNat 32 (s.beAt s.off 4)))))

/-- Where the value last returned is a byte b, IP.VERSION and IP.IHL answer the state with the high and the low nibble of
b in their registers; where it is a 16-bit value g, IP.FLAGS and IP.FRAG answer the state with its top 3 and its low
13 bits; where no value of that width was returned, each writes "no value" (the model's reading, log 6). Everything
else is as before. (42_encapsulation.md R176, 42_encapsulation.md R177, 42_encapsulation.md R181, 42_encapsulation.md
R182, 30_encoding.md R95) -/
def Obligations.Ipv4SharedFieldsAreCut : Prop :=
  ∀ s : State,
  (∀ b : BitVec 8, s.rdbe = some ⟨1, b.toNat⟩ →
    exec .ipVersion s = .next (s.putReg .ipVersion (some (BitVec.ofNat 4 (b.toNat / 16)))) ∧
    exec .ipIhl s = .next (s.putReg .ipIhl (some (BitVec.ofNat 4 b.toNat)))) ∧
  (∀ g : BitVec 16, s.rdbe = some ⟨2, g.toNat⟩ →
    exec .ipFlags s = .next (s.putReg .ipFlags (some (BitVec.ofNat 3 (g.toNat / 8192)))) ∧
    exec .ipFrag s = .next (s.putReg .ipFragOffset (some (BitVec.ofNat 13 g.toNat)))) ∧
  ((∀ v, s.rdbe ≠ some ⟨1, v⟩) →
    exec .ipVersion s = .next (s.putReg .ipVersion none) ∧ exec .ipIhl s = .next (s.putReg .ipIhl none)) ∧
  ((∀ v, s.rdbe ≠ some ⟨2, v⟩) →
    exec .ipFlags s = .next (s.putReg .ipFlags none) ∧ exec .ipFrag s = .next (s.putReg .ipFragOffset none))

/-- For each of the 18 operations that make exactly one read (READ n and RD_BE n aside), if fewer bytes remain than it
reads, it answers the state with ERR_TRUNCATED, no result value, nothing left to run, and everything else, OFF and W
included, as before. (60_exceptions.md R231, 60_exceptions.md R237, 10_state.md R26) -/
def Obligations.ShortFieldReadTakesTheException : Prop :=
  ∀ (s : State) (i : Instr),
  ((∃ k, i = .fhRdw k) ∨ i ∈ ([.ethDst, .ethSrc, .ethLen, .ipTos, .ipTotlen, .ipId, .ipTtl, .ipProto, .ipCsum, .ipSrc,
    .ipDst, .udpSport, .udpDport, .udpLen, .udpCsum, .smpRe, .smpIm] : List Instr)) →
  s.len - s.off < i.needs s.geom →
  exec i s =
    .next { s with f := RegFile.absent, samples := SampleArray.absent s.geom, status := .errTruncated, seq := [] }

/-- When 2 bytes remain and the current coordinate is an element, SMP.RE answers a state in which that element's real
part, and SMP.IM one in which its imaginary part, is the big-endian value of the 2 bytes at OFF; its other part and
every other element are as before, OFF is 2 greater, and every register, word, status and input is as before. SMP.RE
leaves the loop counters; SMP.IM moves them to the next coordinate. Where the current coordinate is no element, both
still read, and no element changes. Two clauses are the model's choice (log 7): where the counters move, and that at a
coordinate that is no element the two operations read their bytes all the same, R207 saying only that "no write falls
outside the extents". (43_payload.md R201, 43_payload.md R202, 43_payload.md R207, 30_encoding.md R93) -/
def Obligations.SamplePartsAreReadAtTheCoordinate : Prop :=
  ∀ s : State, 2 ≤ s.len - s.off →
  (∀ e, s.samples.at s.coord.b s.coord.c s.coord.p = some e →
    (∃ t, exec .smpRe s = .next t ∧
      t.samples.at s.coord.b s.coord.c s.coord.p = some ⟨some (BitVec.ofNat 16 (s.beAt s.off 2)), e.im⟩) ∧
    (∃ t, exec .smpIm s = .next t ∧
      t.samples.at s.coord.b s.coord.c s.coord.p = some ⟨e.re, some (BitVec.ofNat 16 (s.beAt s.off 2))⟩)) ∧
  (s.samples.at s.coord.b s.coord.c s.coord.p = none →
    (∃ t, exec .smpRe s = .next t ∧ t.samples = s.samples) ∧ (∃ t, exec .smpIm s = .next t ∧ t.samples = s.samples)) ∧
  (∀ i, i = .smpRe ∨ i = .smpIm → ∃ t, exec i s = .next t ∧
    (∀ b c p, (b, c, p) ≠ (s.coord.b, s.coord.c, s.coord.p) → t.samples.at b c p = s.samples.at b c p) ∧
    t.off = s.off + 2 ∧ t.coord = (if i = .smpRe then s.coord else s.coord.next s.geom) ∧
    t.f = s.f ∧ t.w = s.w ∧ t.status = s.status ∧ t.seq = s.seq ∧ s.SameInputs t)

/-- When 14, 20 or 8 bytes remain, DEC.ETH, DEC.IPV4, DEC.UDP each answer a state in which every register of its header
holds the bits the container table gives it (the container being the whole header at OFF), OFF is moved past the
header, and every other register, word, sample, status and input is as before. (42_encapsulation.md R171,
42_encapsulation.md R175, 42_encapsulation.md R188, 30_encoding.md R90, 30_encoding.md R91, 30_encoding.md R92) -/
def Obligations.EncapsulationStagesDecodeTheirHeaders : Prop :=
  ∀ (s : State) (i : Instr), i = .decEth ∨ i = .decIpv4 ∨ i = .decUdp → i.needs s.geom ≤ s.len - s.off →
  ∃ t, exec i s = .next t ∧ t.off = s.off + i.needs s.geom ∧
    (∀ r, t.f.get r = if i.writes r then some (s.fieldAt s.off r) else s.f.get r) ∧ s.SameElse t

/-- When 42 bytes remain, DEC.ENCAP answers a state in which each of the 19 encapsulation registers holds its bits of the
header that begins 0, 14 or 34 bytes after OFF, OFF is 42 greater, and everything else is as before, whatever the
headers hold. (42_encapsulation.md R170, 20_memory.md R60) -/
def Obligations.EncapsulationDecodesThreeHeaders : Prop :=
  ∀ s : State, 42 ≤ s.len - s.off →
  ∃ t, exec .decEncap s = .next t ∧ t.off = s.off + 42 ∧
    (∀ r, t.f.get r = if r.isEncap then some (s.fieldAt (s.off + r.headerOffset) r) else s.f.get r) ∧ s.SameElse t

/-- When 64 bytes remain, DEC.FHDR answers a state in which W[k] is the big-endian word at OFF + 8*k, each of the 24
registers holds its bits of its word, OFF is 64 greater, and every other register, sample, status and input is as
before. (41_frame_header.md R130, 30_encoding.md R81, 30_encoding.md R94) -/
def Obligations.FrameHeaderStageDecodesAllFields : Prop :=
  ∀ s : State, 64 ≤ s.len - s.off →
  ∃ t, exec .decFhdr s = .next t ∧ t.off = s.off + 64 ∧
    (∀ k : Fin 8, t.word k = some (BitVec.ofNat 64 (s.beAt (s.off + 8 * k.val) 8))) ∧
    (∀ r, t.f.get r = if r.isFrame then some (s.fieldAt s.off r) else s.f.get r) ∧
    t.samples = s.samples ∧ t.status = s.status ∧ t.coord = s.coord ∧ t.seq = s.seq ∧ s.SameInputs t

/-- When PAYLOAD_BYTES bytes remain and the array has the extents of the geometry, DEC.PAYLOAD answers a state in which
the element at each coordinate inside the extents is the pair of 16-bit values at OFF + 4*i and OFF + 4*i + 2 with i =
(b * N_CH + c) * N_POL + p, elements outside the extents are as before, OFF is PAYLOAD_BYTES greater, and every
register, word, status and input is as before. (43_payload.md R200, 43_payload.md R203, 43_payload.md R207) -/
def Obligations.PayloadStageFillsEverySample : Prop :=
  ∀ s : State, s.geom.payloadBytes ≤ s.len - s.off →
  (∀ b c p, b < s.geom.nBlk → c < s.geom.nCh → p < s.geom.nPol → (s.samples.at b c p).isSome = true) →
  ∃ t, exec .decPayload s = .next t ∧ t.off = s.off + s.geom.payloadBytes ∧
    (∀ b c p, b < s.geom.nBlk → c < s.geom.nCh → p < s.geom.nPol →
      (t.samples.at b c p).bind Sample.pair = some (s.payloadSample s.off b c p)) ∧
    (∀ b c p, ¬ (b < s.geom.nBlk ∧ c < s.geom.nCh ∧ p < s.geom.nPol) → t.samples.at b c p = s.samples.at b c p) ∧
    t.f = s.f ∧ t.w = s.w ∧ t.status = s.status ∧ t.seq = s.seq ∧ s.SameInputs t

/-- For each of the six stages, if fewer bytes remain than the stage consumes, it answers a state with STATUS =
ERR_TRUNCATED, no value in any result register or sample, nothing left to run, and the inputs as before, however many
fields it had decoded. (60_exceptions.md R231, 60_exceptions.md R232, 60_exceptions.md R237) -/
def Obligations.ShortStageExposesNothing : Prop :=
  ∀ (s : State) (i : Instr), i ∈ ([.decEth, .decIpv4, .decUdp, .decEncap, .decFhdr, .decPayload] : List Instr) →
  s.len - s.off < i.needs s.geom →
  ∃ t, exec i s = .next t ∧ s.FailedFrom t

/-- For every state whose LEN is at least 64 + PAYLOAD_BYTES, whatever its registers, status and position, DECODE.BARE
answers a state with STATUS = OK, ENCAP_V = 0, each frame-header register holding its bits of the 64 bytes at address
0, no value in eth.*, ip.*, udp.*, each sample of the extents as at address 64 + 4*i, no other element, OFF = 64 +
PAYLOAD_BYTES and the inputs unchanged. (44_packet.md R211, 44_packet.md R210, 20_memory.md R59, 10_state.md R26,
10_state.md R28) -/
def Obligations.BareDecodeYieldsItsPacket : Prop :=
  ∀ s : State, 64 + s.geom.payloadBytes ≤ s.len →
  ∃ t, exec .decodeBare s = .next t ∧ t.status = .ok ∧ t.f.get .encapV = some 0 ∧
    (∀ r, r.isFrame = true → t.f.get r = some (s.fieldAt 0 r)) ∧
    (∀ r, r.isEncap = true → t.f.get r = none) ∧
    (∀ b c p, b < s.geom.nBlk → c < s.geom.nCh → p < s.geom.nPol →
      t.hostSample b c p = .ok (s.payloadSample 64 b c p)) ∧
    (∀ b c p, ¬ (b < s.geom.nBlk ∧ c < s.geom.nCh ∧ p < s.geom.nPol) → t.hostSample b c p = .error .noSuchSample) ∧
    t.off = 64 + s.geom.payloadBytes ∧ t.seq = s.seq ∧ s.SameInputs t

/-- For every state whose LEN is at least 106 + PAYLOAD_BYTES, DECODE.ENCAP answers a state with STATUS = OK, ENCAP_V = 1,
each encapsulation register holding its bits of the header at address 0, 14 or 34, each frame-header register its bits
of the 64 bytes at address 42, each sample of the extents as at address 106 + 4*i, no other element, OFF = 106 +
PAYLOAD_BYTES and the inputs unchanged. (44_packet.md R212, 44_packet.md R210, 20_memory.md R60, 10_state.md R26,
10_state.md R28) -/
def Obligations.EncapDecodeYieldsItsPacket : Prop :=
  ∀ s : State, 106 + s.geom.payloadBytes ≤ s.len →
  ∃ t, exec .decodeEncap s = .next t ∧ t.status = .ok ∧ t.f.get .encapV = some 1 ∧
    (∀ r, r.isFrame = true → t.f.get r = some (s.fieldAt 42 r)) ∧
    (∀ r, r.isEncap = true → t.f.get r = some (s.fieldAt r.headerOffset r)) ∧
    (∀ b c p, b < s.geom.nBlk → c < s.geom.nCh → p < s.geom.nPol →
      t.hostSample b c p = .ok (s.payloadSample 106 b c p)) ∧
    (∀ b c p, ¬ (b < s.geom.nBlk ∧ c < s.geom.nCh ∧ p < s.geom.nPol) → t.hostSample b c p = .error .noSuchSample) ∧
    t.off = 106 + s.geom.payloadBytes ∧ t.seq = s.seq ∧ s.SameInputs t

/-- For every state and mode, the mode's command answers a next state whose STATUS is OK if and only if LEN is at least 64
+ PAYLOAD_BYTES (BARE) or 106 + PAYLOAD_BYTES (ENCAP); otherwise its STATUS is ERR_TRUNCATED and no result has a
value. (R61) -/
def Obligations.TransactionSucceedsExactlyWhenLongEnough : Prop :=
  ∀ (s : State) (m : Mode), ∃ t, exec m.command s = .next t ∧
  (t.status = .ok ↔ (match m with | .bare => 64 | .encap => 106) + s.geom.nBlk * s.geom.nCh * s.geom.nPol * 4 ≤ s.len) ∧
  (t.status ≠ .ok → s.FailedFrom t)

/-- For each command and any two states that agree on BUF, LEN and the geometry, whatever else they hold, the two next
states agree on STATUS, every result register, the samples, W, OFF and the Packet: no earlier transaction, success or
failure, is seen. That W agrees after a failure too is the model's choice (a start clears W, log 11). (44_packet.md
R220, 60_exceptions.md R242, 10_state.md R37) -/
def Obligations.OutcomeDependsOnInputsAlone : Prop :=
  ∀ (s u t v : State) (m : Mode), u.mem = s.mem → u.len = s.len → u.geom = s.geom →
  exec m.command s = .next t → exec m.command u = .next v →
  v.status = t.status ∧ v.f = t.f ∧ v.samples = t.samples ∧ v.w = t.w ∧ v.off = t.off ∧ v.packet = t.packet

/-- For each command: two states of one geometry whose buffers both reach the mode's total and agree below it answer next
states with the same STATUS, registers, samples and OFF, however long the buffers are and whatever stands above.
(20_memory.md R62, 20_memory.md R51) -/
def Obligations.SurplusBytesAreIgnored : Prop :=
  ∀ (s u t v : State) (m : Mode), u.geom = s.geom → m.neededBytes s.geom ≤ s.len → m.neededBytes s.geom ≤ u.len →
  (∀ a, a < m.neededBytes s.geom → u.mem.get a = s.mem.get a) →
  exec m.command s = .next t → exec m.command u = .next v →
  v.status = t.status ∧ v.f = t.f ∧ v.samples = t.samples ∧ v.off = t.off

/-- For a buffer of at least 42 bytes and the buffer of its bytes from 42 on, DECODE.ENCAP on the first and DECODE.BARE on
the second answer next states with the same STATUS, the same frame-header registers and the same samples. (Stated for
X of exactly 42 bytes: with a longer X the stage that follows would begin inside X.) (42_encapsulation.md R194) -/
def Obligations.EncapsulationOnlyMovesTheCursor : Prop :=
  ∀ (s u t v : State), 42 ≤ s.len → u.len = s.len - 42 → (∀ a, u.mem.get a = s.mem.get (a + 42)) → u.geom = s.geom →
  exec .decodeEncap s = .next t → exec .decodeBare u = .next v →
  v.status = t.status ∧ (∀ r, r.isFrame = true → v.f.get r = t.f.get r) ∧ v.samples = t.samples

/-- For every buffer with 64 bytes left, DEC.FHDR answers a state whose 24 registers form a frame header, and FH_ENCODE of
it is the 64 bytes at the cursor, bit for bit. (41_frame_header.md R157, 41_frame_header.md R156) -/
def Obligations.DecodedHeaderEncodesToItsBytes : Prop :=
  ∀ s : State, 64 ≤ s.len - s.off →
  ∃ t h, exec .decFhdr s = .next t ∧ t.f.frameHeader = some h ∧ h.encode = s.mem.bytes s.off 64

/-- For every record of 24 field values and every buffer that holds its FH_ENCODE at the cursor, DEC.FHDR answers a state
whose registers form exactly that record. (41_frame_header.md R157, 41_frame_header.md R156) -/
def Obligations.EncodedHeaderDecodesToItsFields : Prop :=
  ∀ (s : State) (h : FrameHeader), 64 ≤ s.len - s.off → s.mem.bytes s.off 64 = h.encode →
  ∃ t, exec .decFhdr s = .next t ∧ t.f.frameHeader = some h

/-- For every buffer with 42 bytes left, DEC.ENCAP answers a state whose 19 registers form the encapsulation headers, and
writing those back field by field gives the 42 bytes at the cursor; and for every set of field values, the bytes
written from it decode to it. (42_encapsulation.md R195) -/
def Obligations.EncapsulationHeadersDetermineTheirBytes : Prop :=
  (∀ s : State, 42 ≤ s.len - s.off →
    ∃ t h, exec .decEncap s = .next t ∧ t.f.encapHeaders = some h ∧ h.encode = s.mem.bytes s.off 42) ∧
  (∀ (s : State) (h : EncapHeaders), 42 ≤ s.len - s.off → s.mem.bytes s.off 42 = h.encode →
    ∃ t, exec .decEncap s = .next t ∧ t.f.encapHeaders = some h)

/-- For two buffers with 64 bytes left and any frame-header register: DEC.FHDR gives it the same value in both if and only
if the bits from the field's lowest to its highest in its word are the same; no other bit of the header, the mode or
the rest of the buffer plays a part. (41_frame_header.md R160, 30_encoding.md R81) -/
def Obligations.FieldSeesExactlyItsOwnBits : Prop :=
  ∀ (s u t v : State) (r : Reg), r.isFrame = true → 64 ≤ s.len - s.off → 64 ≤ u.len - u.off →
  exec .decFhdr s = .next t → exec .decFhdr u = .next v →
  (v.f.get r = t.f.get r ↔
    ∀ b, r.place.2.2 ≤ b → b < r.place.2.2 + r.width →
      (u.beAt (u.off + r.place.1) 8).testBit b = (s.beAt (s.off + r.place.1) 8).testBit b)

/-- For every buffer whose 64 bytes at the cursor are all 0, DEC.FHDR answers a state in which every frame-header register
is 0 and the text of sync_seq is "0x0"; if they are all 0xFF, every frame-header register is its largest value 2^width
- 1. (R161) -/
def Obligations.ZeroAndOnesHeaders : Prop :=
  ∀ s : State, 64 ≤ s.len - s.off →
  ((∀ i, i < 64 → s.mem.get (s.off + i) = 0) →
    ∃ t, exec .decFhdr s = .next t ∧ (∀ r, r.isFrame = true → t.f.get r = some 0) ∧
      t.f.w5SyncSeq.map (fun v => String.ofList (hexText v.toNat)) = some "0x0") ∧
  ((∀ i, i < 64 → s.mem.get (s.off + i) = 0xFF) →
    ∃ t, exec .decFhdr s = .next t ∧ (∀ r, r.isFrame = true → t.f.get r = some (BitVec.allOnes r.width)))

/-- For every geometry and BARE buffer long enough whose payload holds at linear index i the pair (i mod 65536, 0), the
decoded sample at (b, c, p) is ((b * N_CH + c) * N_POL + p) mod 65536 and 0. (43_payload.md R206) -/
def Obligations.PayloadPatternIsReproduced : Prop :=
  ∀ s t : State, 64 + s.geom.payloadBytes ≤ s.len →
  (∀ i, i < s.geom.nBlk * s.geom.nCh * s.geom.nPol →
    s.beAt (64 + 4 * i) 2 = i % 65536 ∧ s.beAt (64 + 4 * i + 2) 2 = 0) →
  exec .decodeBare s = .next t →
  ∀ b c p, b < s.geom.nBlk → c < s.geom.nCh → p < s.geom.nPol →
    t.hostSample b c p = .ok (BitVec.ofNat 16 ((b * s.geom.nCh + c) * s.geom.nPol + p), 0)

/-- For every state: the host's read of a register answers v if and only if STATUS = OK and the register holds v, and
otherwise faults with "no value"; its read of S[b][c][p] answers (re, im) if and only if STATUS = OK and the element
holds both parts. Outside STATUS = OK every sample read faults with "no value" and there is no Packet; with STATUS =
OK an index that is no element faults with "no such sample", and an element lacking a part with "no value".
(10_state.md R39, 10_state.md R28, 10_state.md R34, 70_reset_and_hazards.md R267) -/
def Obligations.HostReadsResultsOnlyWhileOk : Prop :=
  (∀ (s : State) (r : Reg),
    (∀ v, s.hostRead r = .ok v ↔ s.status = .ok ∧ s.f.get r = some v) ∧
    ((∀ v, s.hostRead r ≠ .ok v) → s.hostRead r = .error .noValue)) ∧
  (∀ (s : State) (b c p : Nat),
    (∀ re im, s.hostSample b c p = .ok (re, im) ↔ s.status = .ok ∧ s.samples.at b c p = some ⟨some re, some im⟩) ∧
    (s.status ≠ .ok → s.hostSample b c p = .error .noValue) ∧
    (s.status = .ok → s.samples.at b c p = none → s.hostSample b c p = .error .noSuchSample) ∧
    (∀ e, s.status = .ok → s.samples.at b c p = some e → e.re = none ∨ e.im = none →
      s.hostSample b c p = .error .noValue)) ∧
  (∀ s : State, s.status ≠ .ok → s.packet = none)

/-- For every state that meets the run invariant: the Packet has a value if and only if STATUS = OK, and it holds
encapsulation headers if and only if ENCAP_V = 1. (44_packet.md R213, 10_state.md R28) -/
def Obligations.PacketIsThereExactlyWhenOk : Prop :=
  ∀ s : State, s.Inv →
  (s.packet.isSome = true ↔ s.status = .ok) ∧
  (∀ k, s.packet = some k → (k.encap.isSome = true ↔ s.f.get .encapV = some 1))

/-- When no run is in progress, presenting a packet and a mode succeeds and gives a state whose byte at every address
is the packet's byte there (none past its end), whose LEN is its length and whose MODE is the one presented, with
everything else as before. While a run is in progress, which a standing start request already is, the move does not
exist: that it answers the refusal startDuringRun is the model's choice (log 10). (10_state.md R21, 10_state.md R39,
44_packet.md R215, 70_reset_and_hazards.md R266) -/
def Obligations.HostPresentsThePacketBytes : Prop :=
  ∀ (s : State) (p : List Byte) (m : Mode),
  (s.seq = [] → s.start = false →
    ∃ t, s.hostPresent p m = .ok t ∧ (∀ a, t.byteAt a = p[a]?) ∧ t.len = p.length ∧ t.mode = m ∧ t.status = s.status ∧
      t.f = s.f ∧ t.samples = s.samples ∧ t.w = s.w ∧ t.off = s.off ∧ t.seq = [] ∧ t.start = false ∧ t.geom = s.geom) ∧
  (s.seq ≠ [] ∨ s.start = true → s.hostPresent p m = .error .startDuringRun)

/-- From every state with no run in progress: after the host presents a packet and a mode and issues start, the run
ends; its end is a good end if the packet has at least the mode's total of bytes and otherwise a failed end, and the
start request is consumed. That two steps are enough (one accepts the start, one runs the command) is the model's form
(log 8). (44_packet.md R215, 44_packet.md R222, 44_packet.md R214, 60_exceptions.md R231) -/
def Obligations.StartedTransactionReachesItsEnd : Prop :=
  ∀ (s u v : State) (p : List Byte) (m : Mode), s.hostPresent p m = .ok u → u.hostStart = .ok v →
  ∃ t, Host.Core.run Sys2Proof.core 2 v = .next t ∧ t.start = false ∧
    (m.neededBytes s.geom ≤ p.length → t.goodEnd = true) ∧
    (p.length < m.neededBytes s.geom → t.failedEnd = true)

/-- For every state with no start request whose next operation is i: step answers exactly what exec of i answers on the
state with that operation taken off the sequence (holding single operations there is the model's form, log 8). In
particular, where the decoder reads i from a table word, the state withFetchWord makes of any state runs i next (the
words are the model's own, log 1). (20_memory.md R66, 00_scope.md R8) -/
def Obligations.StepRunsTheDecodedOperation : Prop :=
  (∀ (s : State) (i : Instr) (rest : List Instr),
    s.seq = i :: rest → s.start = false → step s = exec i { s with seq := rest }) ∧
  (∀ (s : State) (nbits w : Nat) (i : Instr), decodeTableWord nbits w = some i →
    step (s.withFetchWord nbits w) = exec i { s with seq := [], start := false })

/-- With nothing left to run: the host's start move gives the state with STATUS = IDLE, no result value, OFF = 0, a
standing request and the inputs as before. The rest is the model's form: without a request step leaves an idle state
as it is, with one step answers a state with the request consumed and the command that MODE selects as the one
operation to run (log 8); a request beside operations still to run makes step refuse by name, and during a run the
host's start move answers that refusal (log 10). (44_packet.md R215, 10_state.md R24, 70_reset_and_hazards.md R267,
30_encoding.md R101) -/
def Obligations.StartIsAcceptedOnlyWhenIdle : Prop :=
  ∀ s : State,
  (s.seq = [] → s.start = false → step s = .next s ∧
    ∃ t, s.hostStart = .ok t ∧ t.status = .idle ∧ t.NoResults ∧ t.start = true ∧ t.seq = [] ∧ t.off = 0 ∧ t.mem = s.mem ∧
      t.len = s.len ∧ t.mode = s.mode ∧ t.geom = s.geom) ∧
  (s.seq = [] → s.start = true → ∃ t, step s = .next t ∧ t.status = .idle ∧ t.NoResults ∧ t.start = false ∧
    t.seq = [match s.mode with | .bare => .decodeBare | .encap => .decodeEncap] ∧ t.off = 0 ∧ t.mem = s.mem ∧
    t.len = s.len ∧ t.mode = s.mode ∧ t.geom = s.geom) ∧
  (s.seq ≠ [] → s.start = true → step s = .refused .startDuringRun) ∧
  (s.seq ≠ [] ∨ s.start = true → s.hostStart = .error .startDuringRun)

/-- The model's choice (log 1): the decoder refuses by name the empty word, every word whose operation byte is above 56,
every word whose operation takes no operand (operation byte at most 56 and not 3, 4 or 5) with a nonzero byte after it,
and every FH.RDW whose operand is above 7; it refuses no READ and no RD_BE, whatever the operand. A table word that it
refuses leaves nothing to run: withFetchWord makes a state that the next step leaves as it is. (30_encoding.md R101,
30_encoding.md R102, 40_cursor.md R120, 40_cursor.md R121) -/
def Obligations.UndecodableControlWordIsRefused : Prop :=
  (∀ (s : State) (nbits w : Nat), decodeTableWord nbits w = none →
    step (s.withFetchWord nbits w) = .next { s with seq := [], start := false }) ∧
  decode [] = .error .empty ∧
  (∀ (b : Byte) (bs : List Byte), 56 < b.toNat → decode (b :: bs) = .error .undefinedOperation) ∧
  (∀ (b : Byte) (bs : List Byte), b.toNat ≤ 56 → b ≠ 3 → b ≠ 4 → b ≠ 5 → (∃ x ∈ bs, x ≠ 0) →
    decode (b :: bs) = .error .unexpectedOperand) ∧
  (∀ bs : List Byte, 7 < leNat bs → decode (5 :: bs) = .error .noSuchWord) ∧
  (∀ bs : List Byte, decode (3 :: bs) = .ok (.read (leNat bs)) ∧ decode (4 :: bs) = .ok (.rdBe (leNat bs)))

/-- For every operation with its operand at every value (any natural for READ n and RD_BE n): decode of its control
word followed by any number of zero bytes is the operation. Control words and their trailing zeros are the model's
choice (log 1): the spec gives codes only to the two commands. (30_encoding.md R102, 30_encoding.md R80,
30_encoding.md R101, 40_cursor.md R120, 40_cursor.md R121) -/
def Obligations.DecodeInvertsEncode : Prop :=
  ∀ (i : Instr) (k : Nat), decode (encode i ++ List.replicate k 0) = .ok i

/-- For every control word that decodes to i: the word and the control word of i differ only in zero bytes at the end.
So no bit of a control word is dropped. Control words and their trailing zeros are the model's choice (log 1).
(30_encoding.md R102, 30_encoding.md R80) -/
def Obligations.ControlWordHasOneMeaning : Prop :=
  ∀ (word : ControlWord) (i : Instr), decode word = .ok i →
  ∃ j k, word ++ List.replicate j 0 = encode i ++ List.replicate k 0

/-- MODE = 0 and MODE = 1 as control words are the two commands; the words of one operation of each family, and of the
three that take an operand, decode to it (operation bytes: the model's numbering, log 1). (44_packet.md R211,
44_packet.md R212, 30_encoding.md R102) -/
def Obligations.ControlWordsOfTheTableDecode : Prop :=
  decode [0] = .ok .decodeBare ∧ decode [1] = .ok .decodeEncap ∧ decode [2] = .ok .curInit ∧
  decode [3, 6] = .ok (.read 6) ∧ decode [3, 0x2C, 0x01] = .ok (.read 300) ∧ decode [4, 8] = .ok (.rdBe 8) ∧ decode [4, 4] = .ok (.rdBe 4) ∧
  decode [5, 7] = .ok (.fhRdw 7) ∧ decode [6] = .ok .fhW0Invalid ∧ decode [30] = .ok .decFhdr ∧ decode [31] = .ok .ethDst ∧
  decode [35] = .ok .ipVersion ∧ decode [51] = .ok .udpCsum ∧ decode [53] = .ok .decEncap ∧ decode [54] = .ok .smpRe ∧
  decode [56] = .ok .decPayload

/-- For DEC.ETH, DEC.IPV4, DEC.UDP, DEC.ENCAP and DEC.FHDR and every state with no start request: putting the
operations of the expansion in sequence and taking one step for each answers exactly what exec of the stage answers,
whether it completes or runs short anywhere inside. That single operations stand in sequence and take one step each
is the model's form (log 8). (30_encoding.md R103, 41_frame_header.md R130, 42_encapsulation.md
R170) -/
def Obligations.StageEqualsItsExpansionStepByStep : Prop :=
  ∀ (s : State) (i : Instr), i ∈ ([.decEth, .decIpv4, .decUdp, .decEncap, .decFhdr] : List Instr) → s.start = false →
  Host.Core.run Sys2Proof.core i.expansion.length { s with seq := i.expansion } = exec i { s with seq := [] }

/-- For every geometry and every state with no start request and the loop counters at (0, 0, 0): putting SMP.RE;
SMP.IM in sequence N_BLK * N_CH * N_POL times and taking one step for each answers exactly what exec of DEC.PAYLOAD
answers, whether it completes or runs short. The model's choices: the loop counters are held in State and SMP.IM moves
them (log 7); operations stand in sequence, one step each (log 8). (30_encoding.md R103,
43_payload.md R200) -/
def Obligations.PayloadEqualsItsExpansionStepByStep : Prop :=
  ∀ s : State, s.start = false → s.coord = ⟨0, 0, 0⟩ →
  Host.Core.run Sys2Proof.core (s.geom.nBlk * s.geom.nCh * s.geom.nPol * 2)
      { s with seq := (List.replicate (s.geom.nBlk * s.geom.nCh * s.geom.nPol) [.smpRe, .smpIm]).flatten } =
    exec .decPayload { s with seq := [] }

/-- For every operation and every state, exec answers a next state: TruncatedBuffer, the only exception, is taken. So
does step on every state, whatever stands in its sequence, but one with a start request beside operations still to run:
there alone it refuses, by the name startDuringRun (no permitted host move leads there, log 10), and it never faults.
(44_packet.md R214, 44_packet.md R220, 60_exceptions.md R230, 70_reset_and_hazards.md R267) -/
def Obligations.EveryOperationAnswersANextState : Prop :=
  (∀ (i : Instr) (s : State), ∃ t, exec i s = .next t) ∧
  (∀ s : State, s.seq = [] ∨ s.start = false → ∃ t, step s = .next t) ∧
  (∀ s : State, s.seq ≠ [] → s.start = true → step s = .refused .startDuringRun)

/-- For every operation but CUR.INIT and the two commands, and every state in which the bytes it consumes remain: it
answers a next state with OFF greater by exactly that many bytes and STATUS as before; if they do not remain, OFF is
not less than before and not past LEN when it was not before. (10_state.md R26, 10_state.md R25, 20_memory.md R56) -/
def Obligations.OffsetMovesOnlyByTheRequestedWidth : Prop :=
  ∀ (s : State) (i : Instr), i ≠ .curInit → i ≠ .decodeBare → i ≠ .decodeEncap →
  (i.needs s.geom ≤ s.len - s.off → ∃ t, exec i s = .next t ∧ t.off = s.off + i.needs s.geom ∧ t.status = s.status) ∧
  (s.off ≤ s.len → s.len - s.off < i.needs s.geom →
    ∃ t, exec i s = .next t ∧ s.off ≤ t.off ∧ t.off ≤ s.len ∧ t.status = .errTruncated)

/-- For every operation and state with OFF <= LEN, the next state has OFF <= LEN; so has the next state of step and of
any number of steps; and OFF is not less than before unless the operation is CUR.INIT or a command, which begin a
cursor at 0. Every run satisfies the premise from its first point: the host's start move leaves OFF = 0, and after any
number of steps from there OFF <= LEN. (10_state.md R25, 10_state.md R24) -/
def Obligations.OffsetStaysInTheBuffer : Prop :=
  (∀ (s t : State) (i : Instr), s.off ≤ s.len → exec i s = .next t →
    t.off ≤ t.len ∧ (i = .curInit ∨ i = .decodeBare ∨ i = .decodeEncap ∨ s.off ≤ t.off)) ∧
  (∀ s t : State, s.off ≤ s.len → step s = .next t → t.off ≤ t.len) ∧
  (∀ (s t : State) (n : Nat), s.off ≤ s.len → Host.Core.run Sys2Proof.core n s = .next t → t.off ≤ t.len) ∧
  (∀ s u : State, s.hostStart = .ok u →
    u.off = 0 ∧ ∀ (n : Nat) (t : State), Host.Core.run Sys2Proof.core n u = .next t → t.off ≤ t.len)

/-- For every operation and state, the next state reads the same byte at every address and has the same LEN, MODE and
geometry; so does the next state of step. (20_memory.md R67, 10_state.md R23, 10_state.md R21) -/
def Obligations.BufferIsNeverWritten : Prop :=
  (∀ (s t : State) (i : Instr), exec i s = .next t →
    (∀ a, t.byteAt a = s.byteAt a) ∧ t.mem = s.mem ∧ t.len = s.len ∧ t.mode = s.mode ∧ t.geom = s.geom) ∧
  (∀ s t : State, step s = .next t →
    (∀ a, t.byteAt a = s.byteAt a) ∧ t.mem = s.mem ∧ t.len = s.len ∧ t.mode = s.mode ∧ t.geom = s.geom)

/-- For every operation but the commands, when it answers a next state without taking the exception (STATUS as before):
every result register outside those it writes is as before; W is as before unless it is FH.RDW or DEC.FHDR; the
samples and the loop counters are as before unless it is SMP.RE, SMP.IM or DEC.PAYLOAD; what is left to run and the
start request are as before. (OFF is the matter of its own statement; the latches of what the last read returned may
change.) (30_encoding.md R102, 10_state.md R33, 10_state.md R36) -/
def Obligations.OperationsWriteOnlyTheirOwnState : Prop :=
  ∀ (s t : State) (i : Instr), i ≠ .decodeBare → i ≠ .decodeEncap → i.needs s.geom ≤ s.len - s.off → exec i s = .next t →
  (∀ r, i.writes r = false → t.f.get r = s.f.get r) ∧
  ((∀ k, i ≠ .fhRdw k) → i ≠ .decFhdr → t.w = s.w) ∧
  (i ≠ .smpRe → i ≠ .smpIm → i ≠ .decPayload → t.samples = s.samples ∧ t.coord = s.coord) ∧
  t.seq = s.seq ∧ t.start = s.start ∧ t.status = s.status ∧ ∀ a, t.byteAt a = s.byteAt a

/-- For every operation and state: the next state's STATUS is ERR_MALFORMED only if it was so before; the same of step.
(60_exceptions.md R233, 10_state.md R27) -/
def Obligations.ReservedStatusIsNeverProduced : Prop :=
  (∀ (s t : State) (i : Instr), exec i s = .next t → t.status = .errMalformed → s.status = .errMalformed) ∧
  (∀ s t : State, step s = .next t → t.status = .errMalformed → s.status = .errMalformed)

/-- State.reset meets State.Inv. (10_state.md R38, 10_state.md R28) -/
def Obligations.ResetMeetsTheRunInvariant : Prop :=
  State.reset.Inv

/-- For every state that meets State.Inv (canonical buffer within LEN, reserved status absent, nothing or one command
left to run, OFF <= LEN while a run is in progress, results complete under OK and absent otherwise), if step answers
next t, t meets it. (10_state.md R25, 10_state.md R28, 10_state.md R37, 60_exceptions.md R237, 44_packet.md R213) -/
def Obligations.StepKeepsTheRunInvariant : Prop :=
  ∀ s t : State, s.Inv → step s = .next t → t.Inv

/-- For every state that meets State.Inv, the state after hostPresent, hostStart or hostReset meets it; in particular
a shorter buffer presented between runs leaves no OFF > LEN in the run that follows. (10_state.md R25, 44_packet.md
R215, 70_reset_and_hazards.md R260, 10_state.md R39) -/
def Obligations.HostMovesKeepTheRunInvariant : Prop :=
  ∀ s t : State, s.Inv →
  (∀ p m, s.hostPresent p m = .ok t → t.Inv) ∧ (s.hostStart = .ok t → t.Inv) ∧ s.hostReset.Inv

/-- hexDigit of 0 to 15 is 0 to 9 and a to f. hex2 of an octet is the digit of its high and then of its low nibble.
For every v: HEXTEXT(v) is "0x" and then digits below 16, most significant first, whose value in base 16 is v; the
decimal numeral of v is digits below 10 whose value in base 10 is v; each has at least one digit, and the first is 0
only if it is the only one. For all octets: MACTEXT of the 48-bit value they make, first octet most significant, is
hex2 of each with colons between; IP4TEXT of the 32-bit value is the decimal numeral of each with dots between.
(44_packet.md R216, 44_packet.md R217, 44_packet.md R218) -/
def Obligations.TextsShowTheirValues : Prop :=
  (List.range 16).map hexDigit = ['0', '1', '2', '3', '4', '5', '6', '7', '8', '9', 'a', 'b', 'c', 'd', 'e', 'f'] ∧
  (∀ h l : Nat, h < 16 → l < 16 → hex2 (16 * h + l) = [hexDigit h, hexDigit l]) ∧
  (∀ v : Nat, ∃ ds : List Nat, hexText v = '0' :: 'x' :: ds.map hexDigit ∧ ds ≠ [] ∧ (∀ d ∈ ds, d < 16) ∧
    ds.foldl (fun acc d => acc * 16 + d) 0 = v ∧ (ds.head? = some 0 → ds = [0])) ∧
  (∀ v : Nat, ∃ ds : List Nat, numberText 10 v = ds.map hexDigit ∧ ds ≠ [] ∧ (∀ d ∈ ds, d < 10) ∧
    ds.foldl (fun acc d => acc * 10 + d) 0 = v ∧ (ds.head? = some 0 → ds = [0])) ∧
  (∀ a b c d e f : Byte,
    macText (beBits 48 [a, b, c, d, e, f]) =
      hex2 a.toNat ++ ':' :: hex2 b.toNat ++ ':' :: hex2 c.toNat ++ ':' :: hex2 d.toNat ++ ':' :: hex2 e.toNat ++
        ':' :: hex2 f.toNat) ∧
  (∀ a b c d : Byte,
    ip4Text (beBits 32 [a, b, c, d]) =
      numberText 10 a.toNat ++ '.' :: numberText 10 b.toNat ++ '.' :: numberText 10 c.toNat ++ '.' :: numberText 10 d.toNat)
end

