-- ==== Sys2Proof/Laws/State.lean ====
section
/-! SUPPORT. What each update of the state leaves in each field, one lemma per field and update, all true by definition: no
later proof unfolds an update. -/

namespace Sys2Proof.Machine

variable (s : State)

@[simp] theorem State.putReg_mem (r : Reg) (v : Option (BitVec r.width)) : (s.putReg r v).mem = s.mem := rfl
@[simp] theorem State.putReg_len (r : Reg) (v : Option (BitVec r.width)) : (s.putReg r v).len = s.len := rfl
@[simp] theorem State.putReg_mode (r : Reg) (v : Option (BitVec r.width)) : (s.putReg r v).mode = s.mode := rfl
@[simp] theorem State.putReg_geom (r : Reg) (v : Option (BitVec r.width)) : (s.putReg r v).geom = s.geom := rfl
@[simp] theorem State.putReg_off (r : Reg) (v : Option (BitVec r.width)) : (s.putReg r v).off = s.off := rfl
@[simp] theorem State.putReg_status (r : Reg) (v : Option (BitVec r.width)) : (s.putReg r v).status = s.status := rfl
@[simp] theorem State.putReg_f (r : Reg) (v : Option (BitVec r.width)) : (s.putReg r v).f = s.f.put r v := rfl
@[simp] theorem State.putReg_samples (r : Reg) (v : Option (BitVec r.width)) : (s.putReg r v).samples = s.samples := rfl
@[simp] theorem State.putReg_w (r : Reg) (v : Option (BitVec r.width)) : (s.putReg r v).w = s.w := rfl
@[simp] theorem State.putReg_retBytes (r : Reg) (v : Option (BitVec r.width)) : (s.putReg r v).retBytes = s.retBytes := rfl
@[simp] theorem State.putReg_rdbe (r : Reg) (v : Option (BitVec r.width)) : (s.putReg r v).rdbe = s.rdbe := rfl
@[simp] theorem State.putReg_coord (r : Reg) (v : Option (BitVec r.width)) : (s.putReg r v).coord = s.coord := rfl
@[simp] theorem State.putReg_start (r : Reg) (v : Option (BitVec r.width)) : (s.putReg r v).start = s.start := rfl
@[simp] theorem State.putReg_seq (r : Reg) (v : Option (BitVec r.width)) : (s.putReg r v).seq = s.seq := rfl

@[simp] theorem State.commit_mem (m : Mode) : (s.commit m).mem = s.mem := rfl
@[simp] theorem State.commit_len (m : Mode) : (s.commit m).len = s.len := rfl
@[simp] theorem State.commit_mode (m : Mode) : (s.commit m).mode = s.mode := rfl
@[simp] theorem State.commit_geom (m : Mode) : (s.commit m).geom = s.geom := rfl
@[simp] theorem State.commit_off (m : Mode) : (s.commit m).off = s.off := rfl
@[simp] theorem State.commit_status (m : Mode) : (s.commit m).status = .ok := rfl
@[simp] theorem State.commit_f (m : Mode) : (s.commit m).f = s.f.put .encapV (some m.bit) := rfl
@[simp] theorem State.commit_samples (m : Mode) : (s.commit m).samples = s.samples := rfl
@[simp] theorem State.commit_w (m : Mode) : (s.commit m).w = s.w := rfl
@[simp] theorem State.commit_retBytes (m : Mode) : (s.commit m).retBytes = s.retBytes := rfl
@[simp] theorem State.commit_rdbe (m : Mode) : (s.commit m).rdbe = s.rdbe := rfl
@[simp] theorem State.commit_coord (m : Mode) : (s.commit m).coord = s.coord := rfl
@[simp] theorem State.commit_start (m : Mode) : (s.commit m).start = s.start := rfl
@[simp] theorem State.commit_seq (m : Mode) : (s.commit m).seq = s.seq := rfl

@[simp] theorem State.takeTruncated_mem : (s.takeTruncated).mem = s.mem := rfl
@[simp] theorem State.takeTruncated_len : (s.takeTruncated).len = s.len := rfl
@[simp] theorem State.takeTruncated_mode : (s.takeTruncated).mode = s.mode := rfl
@[simp] theorem State.takeTruncated_geom : (s.takeTruncated).geom = s.geom := rfl
@[simp] theorem State.takeTruncated_off : (s.takeTruncated).off = s.off := rfl
@[simp] theorem State.takeTruncated_status : (s.takeTruncated).status = .errTruncated := rfl
@[simp] theorem State.takeTruncated_f : (s.takeTruncated).f = RegFile.absent := rfl
@[simp] theorem State.takeTruncated_samples : (s.takeTruncated).samples = SampleArray.absent s.geom := rfl
@[simp] theorem State.takeTruncated_w : (s.takeTruncated).w = s.w := rfl
@[simp] theorem State.takeTruncated_retBytes : (s.takeTruncated).retBytes = s.retBytes := rfl
@[simp] theorem State.takeTruncated_rdbe : (s.takeTruncated).rdbe = s.rdbe := rfl
@[simp] theorem State.takeTruncated_coord : (s.takeTruncated).coord = s.coord := rfl
@[simp] theorem State.takeTruncated_start : (s.takeTruncated).start = s.start := rfl
@[simp] theorem State.takeTruncated_seq : (s.takeTruncated).seq = [] := rfl

@[simp] theorem State.beginTransaction_mem : (s.beginTransaction).mem = s.mem := rfl
@[simp] theorem State.beginTransaction_len : (s.beginTransaction).len = s.len := rfl
@[simp] theorem State.beginTransaction_mode : (s.beginTransaction).mode = s.mode := rfl
@[simp] theorem State.beginTransaction_geom : (s.beginTransaction).geom = s.geom := rfl
@[simp] theorem State.beginTransaction_off : (s.beginTransaction).off = 0 := rfl
@[simp] theorem State.beginTransaction_status : (s.beginTransaction).status = .idle := rfl
@[simp] theorem State.beginTransaction_f : (s.beginTransaction).f = RegFile.absent := rfl
@[simp] theorem State.beginTransaction_samples : (s.beginTransaction).samples = SampleArray.absent s.geom := rfl
@[simp] theorem State.beginTransaction_w : (s.beginTransaction).w = Vector.replicate 8 none := rfl
@[simp] theorem State.beginTransaction_retBytes : (s.beginTransaction).retBytes = none := rfl
@[simp] theorem State.beginTransaction_rdbe : (s.beginTransaction).rdbe = none := rfl
@[simp] theorem State.beginTransaction_coord : (s.beginTransaction).coord = ⟨0, 0, 0⟩ := rfl
@[simp] theorem State.beginTransaction_start : (s.beginTransaction).start = s.start := rfl
@[simp] theorem State.beginTransaction_seq : (s.beginTransaction).seq = s.seq := rfl

@[simp] theorem State.acceptStart_mem : (s.acceptStart).mem = s.mem := rfl
@[simp] theorem State.acceptStart_len : (s.acceptStart).len = s.len := rfl
@[simp] theorem State.acceptStart_mode : (s.acceptStart).mode = s.mode := rfl
@[simp] theorem State.acceptStart_geom : (s.acceptStart).geom = s.geom := rfl
@[simp] theorem State.acceptStart_off : (s.acceptStart).off = 0 := rfl
@[simp] theorem State.acceptStart_status : (s.acceptStart).status = .idle := rfl
@[simp] theorem State.acceptStart_f : (s.acceptStart).f = RegFile.absent := rfl
@[simp] theorem State.acceptStart_samples : (s.acceptStart).samples = SampleArray.absent s.geom := rfl
@[simp] theorem State.acceptStart_w : (s.acceptStart).w = Vector.replicate 8 none := rfl
@[simp] theorem State.acceptStart_retBytes : (s.acceptStart).retBytes = none := rfl
@[simp] theorem State.acceptStart_rdbe : (s.acceptStart).rdbe = none := rfl
@[simp] theorem State.acceptStart_coord : (s.acceptStart).coord = ⟨0, 0, 0⟩ := rfl
@[simp] theorem State.acceptStart_start : (s.acceptStart).start = false := rfl
@[simp] theorem State.acceptStart_seq : (s.acceptStart).seq = [s.mode.command] := rfl

@[simp] theorem State.withFetchWord_mem (nbits w : Nat) : (s.withFetchWord nbits w).mem = s.mem := rfl
@[simp] theorem State.withFetchWord_len (nbits w : Nat) : (s.withFetchWord nbits w).len = s.len := rfl
@[simp] theorem State.withFetchWord_mode (nbits w : Nat) : (s.withFetchWord nbits w).mode = s.mode := rfl
@[simp] theorem State.withFetchWord_geom (nbits w : Nat) : (s.withFetchWord nbits w).geom = s.geom := rfl
@[simp] theorem State.withFetchWord_off (nbits w : Nat) : (s.withFetchWord nbits w).off = s.off := rfl
@[simp] theorem State.withFetchWord_status (nbits w : Nat) : (s.withFetchWord nbits w).status = s.status := rfl
@[simp] theorem State.withFetchWord_f (nbits w : Nat) : (s.withFetchWord nbits w).f = s.f := rfl
@[simp] theorem State.withFetchWord_samples (nbits w : Nat) : (s.withFetchWord nbits w).samples = s.samples := rfl
@[simp] theorem State.withFetchWord_w (nbits w : Nat) : (s.withFetchWord nbits w).w = s.w := rfl
@[simp] theorem State.withFetchWord_retBytes (nbits w : Nat) : (s.withFetchWord nbits w).retBytes = s.retBytes := rfl
@[simp] theorem State.withFetchWord_rdbe (nbits w : Nat) : (s.withFetchWord nbits w).rdbe = s.rdbe := rfl
@[simp] theorem State.withFetchWord_coord (nbits w : Nat) : (s.withFetchWord nbits w).coord = s.coord := rfl
@[simp] theorem State.withFetchWord_start (nbits w : Nat) : (s.withFetchWord nbits w).start = false := rfl
@[simp] theorem State.withFetchWord_seq (nbits w : Nat) : (s.withFetchWord nbits w).seq = (decodeTableWord nbits w).toList := rfl

end Sys2Proof.Machine
end

