-- ==== Sys2Proof/Laws/Memory.lean ====
section
/-! SUPPORT. The input buffer: a read after a write, and the canonical form kept by every operation on it. -/

namespace Sys2Proof.Machine

@[simp] theorem Memory.get_nil (a : Nat) : Memory.get [] a = Memory.fill := rfl

@[simp] theorem Memory.get_cons (k : Nat) (b : Byte) (m : Memory) (a : Nat) :
    Memory.get ((k, b) :: m) a = if k = a then b else Memory.get m a := rfl

theorem Memory.wfAbove_cons {lo k : Nat} {b : Byte} {m : Memory} :
    Memory.wfAbove lo ((k, b) :: m) = true ↔ lo ≤ k ∧ b ≠ Memory.fill ∧ Memory.wfAbove (k + 1) m = true := by
  simp [Memory.wfAbove, and_assoc]

/-- An address below a canonical memory's bound is unlisted. -/
theorem Memory.get_of_lt {m : Memory} {lo a : Nat} (h : Memory.wfAbove lo m = true) (ha : a < lo) :
    m.get a = Memory.fill := by
  induction m generalizing lo with
  | nil => rfl
  | cons c rest ih =>
    obtain ⟨k, b⟩ := c
    obtain ⟨h1, -, h3⟩ := Memory.wfAbove_cons.mp h
    rw [Memory.get_cons, if_neg (by omega)]
    exact ih h3 (by omega)

theorem Memory.wfAbove_mono {m : Memory} {lo lo' : Nat} (h : Memory.wfAbove lo' m = true) (hl : lo ≤ lo') :
    Memory.wfAbove lo m = true := by
  cases m with
  | nil => rfl
  | cons c rest =>
    obtain ⟨k, b⟩ := c
    obtain ⟨h1, h2, h3⟩ := Memory.wfAbove_cons.mp h
    exact Memory.wfAbove_cons.mpr ⟨by omega, h2, h3⟩

theorem Memory.put_wfAbove {m : Memory} {lo a : Nat} {b : Byte} (h : Memory.wfAbove lo m = true) (ha : lo ≤ a) :
    Memory.wfAbove lo (m.put a b) = true := by
  induction m generalizing lo with
  | nil =>
    by_cases hb : b = Memory.fill
    · simp [Memory.put, hb, Memory.wfAbove]
    · simp [Memory.put, hb, Memory.wfAbove, ha]
  | cons c rest ih =>
    obtain ⟨k, d⟩ := c
    obtain ⟨h1, h2, h3⟩ := Memory.wfAbove_cons.mp h
    unfold Memory.put
    split
    · split
      · exact h
      · rename_i hlt hb
        exact Memory.wfAbove_cons.mpr ⟨ha, hb, Memory.wfAbove_cons.mpr ⟨by omega, h2, h3⟩⟩
    · split
      · split
        · exact Memory.wfAbove_mono h3 (by omega)
        · rename_i hlt heq hb
          exact Memory.wfAbove_cons.mpr ⟨ha, hb, by rw [heq]; exact h3⟩
      · exact Memory.wfAbove_cons.mpr ⟨h1, h2, ih h3 (by omega)⟩

/-- Putting a byte keeps the canonical form. -/
theorem Memory.put_wf {m : Memory} (a : Nat) (b : Byte) (h : m.wf = true) : (m.put a b).wf = true :=
  Memory.put_wfAbove h (Nat.zero_le a)

/-- Putting many bytes keeps the canonical form. -/
theorem Memory.putAll_wf {m : Memory} (a : Nat) (bs : List Byte) (h : m.wf = true) : (m.putAll a bs).wf = true := by
  induction bs generalizing m a with
  | nil => exact h
  | cons b bs ih => exact ih _ (Memory.put_wf a b h)

/-- The buffer after reset is canonical. -/
theorem State.reset_mem_wf : State.reset.mem.wf = true := rfl

theorem Memory.get_put_same {m : Memory} {lo : Nat} (a : Nat) (b : Byte) (h : Memory.wfAbove lo m = true) :
    (m.put a b).get a = b := by
  induction m generalizing lo with
  | nil => by_cases hb : b = Memory.fill <;> simp [Memory.put, hb]
  | cons c rest ih =>
    obtain ⟨k, d⟩ := c
    obtain ⟨h1, h2, h3⟩ := Memory.wfAbove_cons.mp h
    unfold Memory.put
    split
    · split
      · rename_i hlt hb
        rw [hb, Memory.get_cons, if_neg (by omega)]
        exact Memory.get_of_lt h3 (by omega)
      · simp
    · split
      · split
        · rename_i hlt heq hb
          rw [hb]; exact Memory.get_of_lt h3 (by omega)
        · simp
      · rw [Memory.get_cons, if_neg (by omega)]
        exact ih h3

theorem Memory.get_put_of_ne (m : Memory) {a x : Nat} (b : Byte) (hx : x ≠ a) :
    (m.put a b).get x = m.get x := by
  induction m with
  | nil => by_cases hb : b = Memory.fill <;> simp [Memory.put, hb, Ne.symm hx]
  | cons c rest ih =>
    obtain ⟨k, d⟩ := c
    unfold Memory.put
    split
    · split
      · rfl
      · simp [Ne.symm hx]
    · split
      · rename_i heq
        subst heq
        split <;> simp [Ne.symm hx]
      · simp only [Memory.get_cons, ih]

/-- What putting many bytes leaves: they stand from `a` on, and every other address reads as before. -/
theorem Memory.get_putAll {m : Memory} (a : Nat) (bs : List Byte) (x : Nat) (h : m.wf = true) :
    (m.putAll a bs).get x = if a ≤ x then bs[x - a]?.getD (m.get x) else m.get x := by
  induction bs generalizing m a with
  | nil => simp [Memory.putAll]
  | cons b bs ih =>
    rw [Memory.putAll, ih (a + 1) (Memory.put_wf a b h)]
    by_cases hx : x = a
    · subst hx
      rw [if_neg (by omega), if_pos le_rfl, Nat.sub_self, List.getElem?_cons_zero, Option.getD_some]
      exact Memory.get_put_same x b h
    · rw [Memory.get_put_of_ne m b hx]
      by_cases ha : a ≤ x
      · obtain ⟨k, hk⟩ : ∃ k, x - a = k + 1 := ⟨x - a - 1, by omega⟩
        rw [if_pos (by omega), if_pos ha, hk, List.getElem?_cons_succ, show x - (a + 1) = k by omega]
      · rw [if_neg (by omega), if_neg ha]

@[simp] theorem Memory.length_bytes (m : Memory) (a n : Nat) : (m.bytes a n).length = n := by
  induction n generalizing a with
  | zero => rfl
  | succ n ih => simp [Memory.bytes, ih]

/-- Reading `n + k` bytes is reading `n` and then `k` (40_cursor.md R124). -/
theorem Memory.bytes_add (m : Memory) (a n k : Nat) : m.bytes a (n + k) = m.bytes a n ++ m.bytes (a + n) k := by
  induction n generalizing a with
  | zero => simp [Memory.bytes]
  | succ n ih =>
    rw [Nat.succ_add, Memory.bytes, Memory.bytes, ih, List.cons_append, Nat.add_assoc, Nat.add_comm 1 n]

theorem Memory.getElem?_bytes (m : Memory) (a n i : Nat) (h : i < n) : (m.bytes a n)[i]? = some (m.get (a + i)) := by
  induction n generalizing a i with
  | zero => omega
  | succ n ih =>
    cases i with
    | zero => simp [Memory.bytes]
    | succ i =>
      rw [Memory.bytes, List.getElem?_cons_succ, ih (a + 1) i (by omega)]
      congr 2; omega

end Sys2Proof.Machine
end

