-- ==== Sys2Proof/Laws/Operands.lean ====
section
/-! SUPPORT. Big-endian assembly and shift-then-mask extraction as arithmetic. -/

namespace Sys2Proof.Machine

theorem be_foldl (acc : Nat) (bs : List Byte) :
    bs.foldl (fun acc b => acc * 256 + b.toNat) acc = acc * 256 ^ bs.length + be bs := by
  unfold be
  induction bs generalizing acc with
  | nil => simp
  | cons b bs ih =>
    rw [List.foldl_cons, List.foldl_cons, ih, ih (0 * 256 + b.toNat), List.length_cons, pow_succ]
    ring

@[simp] theorem be_nil : be [] = 0 := rfl

/-- The first byte is the most significant (20_memory.md R52). -/
theorem be_cons (b : Byte) (bs : List Byte) : be (b :: bs) = b.toNat * 256 ^ bs.length + be bs := by
  conv_lhs => rw [be, List.foldl_cons]
  rw [be_foldl]; simp

theorem be_append (xs ys : List Byte) : be (xs ++ ys) = be xs * 256 ^ ys.length + be ys := by
  conv_lhs => rw [be, List.foldl_append]
  rw [be_foldl]; rfl

theorem be_lt (bs : List Byte) : be bs < 256 ^ bs.length := by
  induction bs with
  | nil => simp
  | cons b bs ih =>
    rw [be_cons, List.length_cons, pow_succ]
    have := b.isLt
    nlinarith

/-- `EXT(v, hi, lo)` is `v[hi:lo] = (v >> lo) mod 2^(hi-lo+1)` (00_scope.md R13) for a field inside its container. -/
theorem toNat_ext {n : Nat} (v : BitVec n) {hi lo : Nat} (h : hi < n) (hl : lo ≤ hi) :
    (ext v hi lo).toNat = v.toNat / 2 ^ lo % 2 ^ (hi - lo + 1) := by
  have hw : 2 ^ (hi - lo + 1) ≤ 2 ^ n := Nat.pow_le_pow_right (by norm_num) (by omega)
  have hp : 0 < 2 ^ (hi - lo + 1) := Nat.two_pow_pos _
  rw [ext, BitVec.toNat_setWidth, BitVec.toNat_and, BitVec.toNat_ushiftRight, BitVec.toNat_ofNat,
    Nat.mod_eq_of_lt (a := 2 ^ (hi - lo + 1) - 1) (by omega), Nat.and_two_pow_sub_one_eq_mod, Nat.mod_mod,
    Nat.shiftRight_eq_div_pow]

/-! A write of a result register leaves what the other operations read from the running stage. -/

@[simp] theorem State.putReg_word (s : State) (r : Reg) (v : Option (BitVec r.width)) (k : Fin 8) :
    (s.putReg r v).word k = s.word k := rfl

@[simp] theorem State.putReg_wordField (s : State) (r : Reg) (v : Option (BitVec r.width)) (k : Fin 8) (hi lo : Nat) :
    (s.putReg r v).wordField k hi lo = s.wordField k hi lo := rfl

@[simp] theorem State.putReg_operandB (s : State) (r : Reg) (v : Option (BitVec r.width)) :
    (s.putReg r v).operandB = s.operandB := rfl

@[simp] theorem State.putReg_operandG (s : State) (r : Reg) (v : Option (BitVec r.width)) :
    (s.putReg r v).operandG = s.operandG := rfl

end Sys2Proof.Machine
end

