-- ==== Sys2Proof/Laws/Registers.lean ====
section
/-! SUPPORT. The register file as a map from names to values (10_state.md R33: two names never share a register). -/

namespace Sys2Proof.Machine

@[simp] theorem RegFile.get_put_same (f : RegFile) (r : Reg) (v : Option (BitVec r.width)) :
    (f.put r v).get r = v := by
  cases r <;> rfl

theorem RegFile.get_put_of_ne (f : RegFile) {r q : Reg} (v : Option (BitVec r.width)) (h : q ≠ r) :
    (f.put r v).get q = f.get q := by
  cases r <;> cases q <;> first | rfl | exact absurd rfl h

@[simp] theorem RegFile.get_absent (r : Reg) : RegFile.absent.get r = none := by
  cases r <;> rfl

/-- Two register files with the same value under every name are equal. -/
theorem RegFile.ext_get {f g : RegFile} (h : ∀ r, f.get r = g.get r) : f = g := by
  cases f; cases g
  simp only [RegFile.mk.injEq]
  refine ⟨h .encapV, h .ethDst, h .ethSrc, h .ethLen, h .ipVersion, h .ipIhl, h .ipTos, h .ipTotalLength,
    h .ipIdentification, h .ipFlags, h .ipFragOffset, h .ipTtl, h .ipProtocol, h .ipChecksum, h .ipSrc, h .ipDst,
    h .udpSrcPort, h .udpDstPort, h .udpLength, h .udpChecksum, h .w0Invalid, h .w0Complex, h .w0EpochStartSec,
    h .w0FrameNumber, h .w1Version, h .w1BitsPerSample, h .w1ArrayLength, h .w1RefEpochPeriod,
    h .w1SampleRepresentation, h .w1Unassigned, h .w1StationId, h .w2BlockLength, h .w2ChannelsPerThread,
    h .w2FreqGroup, h .w2BeamId, h .w3Reserved16, h .w3Period, h .w3Reserved32, h .w4IntervalsPerPeriod,
    h .w5SyncSeq, h .w5Reserved32, h .w6ExtDataVersion, h .w6ExtUserData, h .w7ExtUserData⟩

end Sys2Proof.Machine
end

