-- ==== Sys2Proof/Laws/Ops.lean ====
section
/-! SUPPORT. What each shared operation can do, said once: the two cases of a read, what `settle` answers, how stages
run on. -/

namespace Sys2Proof.Machine

@[simp] theorem settle_ok (s : State) : settle (.ok s) = .next s := rfl

@[simp] theorem settle_error (s : State) : settle (.error s) = .next s.takeTruncated := rfl

/-- Part of a container, as bits of its value: the `k` bytes `i` bytes into a container of `n`. -/
theorem be_bytes_slice (m : Memory) (a : Nat) {n i k : Nat} (h : i + k ≤ n) :
    be (m.bytes (a + i) k) = be (m.bytes a n) / 256 ^ (n - i - k) % 256 ^ k := by
  obtain ⟨j, rfl⟩ := Nat.exists_eq_add_of_le h
  have hj := be_lt (m.bytes (a + (i + k)) j)
  have hk := be_lt (m.bytes (a + i) k)
  rw [Memory.length_bytes] at hj hk
  have e : be (m.bytes a (i + k + j)) =
      be (m.bytes (a + (i + k)) j) + (be (m.bytes (a + i) k) + be (m.bytes a i) * 256 ^ k) * 256 ^ j := by
    rw [Memory.bytes_add, be_append, Memory.bytes_add, be_append, Memory.length_bytes, Memory.length_bytes]; ring
  rw [e, show i + k + j - i - k = j by omega, Nat.add_mul_div_right _ _ (by positivity), Nat.div_eq_of_lt hj, Nat.zero_add,
    Nat.add_mul_mod_self_right, Nat.mod_eq_of_lt hk]

/-- An operation always answers a next state: it has gone on, or it has taken the exception. -/
theorem settle_next (a : Attempt) : ∃ t, settle a = .next t := by
  cases a <;> exact ⟨_, rfl⟩

theorem State.readBytes_ok {s : State} {n : Nat} (h : n ≤ s.len - s.off) :
    s.readBytes n = .ok (s.mem.bytes s.off n, s.afterRead n) := by
  simp [State.readBytes, Nat.not_lt.mpr h, State.afterRead]

theorem State.readBytes_error {s : State} {n : Nat} (h : s.len - s.off < n) : s.readBytes n = .error s := by
  simp [State.readBytes, h]

theorem State.readBe_ok {s : State} {n : Nat} (h : n ≤ s.len - s.off) :
    s.readBe n = .ok (beBits (8 * n) (s.mem.bytes s.off n), s.afterReadBe n) := by
  rw [State.readBe, State.readBytes_ok h]; rfl

theorem State.readBe_error {s : State} {n : Nat} (h : s.len - s.off < n) : s.readBe n = .error s := by
  rw [State.readBe, State.readBytes_error h]; rfl

theorem State.readRun_ok {s : State} {n : Nat} (r : Reg) (h : n ≤ s.len - s.off) :
    s.readRun r n = .ok ((s.afterRead n).putReg r (some (beBits r.width (s.mem.bytes s.off n)))) := by
  rw [State.readRun, State.readBytes_ok h]; rfl

theorem State.readRun_error {s : State} {n : Nat} (r : Reg) (h : s.len - s.off < n) : s.readRun r n = .error s := by
  rw [State.readRun, State.readBytes_error h]; rfl

theorem State.readField_ok {s : State} {n : Nat} (r : Reg) (h : n ≤ s.len - s.off) :
    s.readField r n =
      .ok ((s.afterReadBe n).putReg r (some ((beBits (8 * n) (s.mem.bytes s.off n)).setWidth r.width))) := by
  rw [State.readField, State.readBe_ok h]; rfl

theorem State.readField_error {s : State} {n : Nat} (r : Reg) (h : s.len - s.off < n) : s.readField r n = .error s := by
  rw [State.readField, State.readBe_error h]; rfl

end Sys2Proof.Machine
end

