-- ==== Sys2Proof/Laws/Exec.lean ====
section
/-! SUPPORT. Every operation as an attempt that `settle` turns into its outcome: what is proved of attempts, which compose,
reaches `exec` through one equation. -/

namespace Sys2Proof.Machine

/-- What running an operation comes to, before the exception is taken. -/
def attemptOf : Instr → State → Attempt
  | .curInit => curInit
  | .read n => readN n
  | .rdBe n => rdBe n
  | .fhRdw k => fhRdw k
  | .fhW0Invalid => fhW0Invalid
  | .fhW0Complex => fhW0Complex
  | .fhW0Epoch => fhW0Epoch
  | .fhW0Frame => fhW0Frame
  | .fhW1Version => fhW1Version
  | .fhW1Bps => fhW1Bps
  | .fhW1Arrlen => fhW1Arrlen
  | .fhW1Refep => fhW1Refep
  | .fhW1Srep => fhW1Srep
  | .fhW1Unassigned => fhW1Unassigned
  | .fhW1Station => fhW1Station
  | .fhW2Blklen => fhW2Blklen
  | .fhW2Chpt => fhW2Chpt
  | .fhW2Fgroup => fhW2Fgroup
  | .fhW2Beam => fhW2Beam
  | .fhW3Rsvd16 => fhW3Rsvd16
  | .fhW3Period => fhW3Period
  | .fhW3Rsvd32 => fhW3Rsvd32
  | .fhW4Ipp => fhW4Ipp
  | .fhW5Sync => fhW5Sync
  | .fhW5Rsvd32 => fhW5Rsvd32
  | .fhW6Edv => fhW6Edv
  | .fhW6Eud => fhW6Eud
  | .fhW7Eud => fhW7Eud
  | .decFhdr => decFhdr
  | .ethDst => ethDst
  | .ethSrc => ethSrc
  | .ethLen => ethLen
  | .decEth => decEth
  | .ipVersion => ipVersion
  | .ipIhl => ipIhl
  | .ipTos => ipTos
  | .ipTotlen => ipTotlen
  | .ipId => ipId
  | .ipFlags => ipFlags
  | .ipFrag => ipFrag
  | .ipTtl => ipTtl
  | .ipProto => ipProto
  | .ipCsum => ipCsum
  | .ipSrc => ipSrc
  | .ipDst => ipDst
  | .decIpv4 => decIpv4
  | .udpSport => udpSport
  | .udpDport => udpDport
  | .udpLen => udpLen
  | .udpCsum => udpCsum
  | .decUdp => decUdp
  | .decEncap => decEncap
  | .smpRe => smpRe
  | .smpIm => smpIm
  | .decPayload => decPayload
  | .decodeBare => decodeBare
  | .decodeEncap => decodeEncap

/-- Every meaning is its attempt, settled. -/
theorem exec_eq_settle (i : Instr) (s : State) : exec i s = settle (attemptOf i s) := by
  cases i <;> rfl

/-- The attempt went on in `t`, or it raised the exception in `t`, which was then taken. -/
theorem exec_next {i : Instr} {s u : State} (h : exec i s = .next u) :
    attemptOf i s = .ok u ∨ ∃ t, attemptOf i s = .error t ∧ u = t.takeTruncated := by
  rw [exec_eq_settle] at h
  cases ha : attemptOf i s with
  | ok t => rw [ha] at h; left; cases h; rfl
  | error t => rw [ha] at h; right; cases h; exact ⟨t, rfl, rfl⟩

end Sys2Proof.Machine
end

