-- ==== Sys2Proof/Laws/Moves.lean ====
section
/-! SUPPORT. How attempts compose. `Moves g n a` says once what every operation of fixed width `n` does to the cursor and to
what is not its own: it goes on past `n` bytes when they remain, and raises the exception otherwise. -/

namespace Sys2Proof.Machine

/-- The inputs, the status and what is left to run are as before. -/
def State.SameRun (s t : State) : Prop :=
  s.SameInputs t ∧ t.status = s.status ∧ t.seq = s.seq

theorem State.SameRun.refl (s : State) : s.SameRun s := ⟨⟨rfl, rfl, rfl, rfl, rfl⟩, rfl, rfl⟩

theorem State.SameRun.trans {s t u : State} (h : s.SameRun t) (k : t.SameRun u) : s.SameRun u := by
  obtain ⟨⟨h1, h2, h3, h4, h5⟩, h6, h7⟩ := h
  obtain ⟨⟨k1, k2, k3, k4, k5⟩, k6, k7⟩ := k
  exact ⟨⟨k1.trans h1, k2.trans h2, k3.trans h3, k4.trans h4, k5.trans h5⟩, k6.trans h6, k7.trans h7⟩

/-- An attempt that consumes exactly `n` bytes on the geometry `g`. -/
structure Moves (g : Geometry) (n : Nat) (a : State → Attempt) : Prop where
  /-- With `n` bytes left it goes on. -/
  ok : ∀ s, s.geom = g → n ≤ s.len - s.off → ∃ t, a s = .ok t ∧ t.off = s.off + n ∧ s.SameRun t
  /-- With fewer it raises the exception, its cursor not moved back nor past the end. -/
  short : ∀ s, s.geom = g → s.len - s.off < n →
    ∃ t, a s = .error t ∧ s.off ≤ t.off ∧ (s.off ≤ s.len → t.off ≤ s.len) ∧ s.SameRun t

variable {g : Geometry} {n m : Nat} {a b : State → Attempt}

/-- An attempt that reads nothing and changes neither the inputs, the status nor what is left to run. -/
theorem Moves.of_ok (h : ∀ s, ∃ t, a s = .ok t ∧ t.off = s.off ∧ s.SameRun t) : Moves g 0 a :=
  ⟨fun s _ _ => by simpa using h s, fun s _ hs => absurd hs (Nat.not_lt_zero _)⟩

/-- One attempt after another. -/
theorem Moves.bind (ha : Moves g n a) (hb : Moves g m b) : Moves g (n + m) (fun s => a s >>= b) := by
  refine ⟨fun s hg h => ?_, fun s hg h => ?_⟩
  · obtain ⟨t, e, ho, hs⟩ := ha.ok s hg (by omega)
    obtain ⟨u, e', ho', hs'⟩ := hb.ok t (hs.1.2.2.2.1.trans hg) (by rw [hs.1.2.1]; omega)
    exact ⟨u, by rw [e]; exact e', by omega, hs.trans hs'⟩
  · by_cases hn : n ≤ s.len - s.off
    · obtain ⟨t, e, ho, hs⟩ := ha.ok s hg hn
      obtain ⟨u, e', ho', hl, hs'⟩ := hb.short t (hs.1.2.2.2.1.trans hg) (by rw [hs.1.2.1]; omega)
      refine ⟨u, by rw [e]; exact e', by omega, fun hsl => ?_, hs.trans hs'⟩
      rw [hs.1.2.1] at hl
      exact hl (by omega)
    · obtain ⟨t, e, ho, hl, hs⟩ := ha.short s hg (by omega)
      exact ⟨t, by rw [e]; rfl, ho, hl, hs⟩

theorem forUpto_zero (body : Nat → State → Attempt) (s : State) : forUpto 0 body s = .ok s := rfl

theorem forUpto_succ (k : Nat) (body : Nat → State → Attempt) (s : State) :
    forUpto (k + 1) body s = forUpto k body s >>= body k := by
  simp [forUpto, List.range_succ, List.foldlM_append]

/-- What a loop leaves, from what each iteration leaves. -/
theorem forUpto_inv {body : Nat → State → Attempt} {P : Nat → State → Prop} {k : Nat} {s : State} (h0 : P 0 s)
    (h : ∀ i t, i < k → P i t → ∃ u, body i t = .ok u ∧ P (i + 1) u) : ∃ u, forUpto k body s = .ok u ∧ P k u := by
  induction k with
  | zero => exact ⟨s, rfl, h0⟩
  | succ k ih =>
    obtain ⟨t, e, ht⟩ := ih fun i t hi => h i t (by omega)
    obtain ⟨u, e', hu⟩ := h k t (by omega) ht
    exact ⟨u, by rw [forUpto_succ, e]; exact e', hu⟩

/-- A loop of attempts. -/
theorem Moves.loop {body : Nat → State → Attempt} (h : ∀ i, Moves g n (body i)) (k : Nat) :
    Moves g (k * n) (forUpto k body) := by
  induction k with
  | zero => rw [Nat.zero_mul]; exact Moves.of_ok fun s => ⟨s, rfl, rfl, State.SameRun.refl s⟩
  | succ k ih =>
    rw [Nat.succ_mul, show forUpto (k + 1) body = fun s => forUpto k body s >>= body k from
      funext fun s => forUpto_succ k body s]
    exact ih.bind (h k)

theorem Moves.readN (n : Nat) : Moves g n (fun s => (fun p => p.2) <$> s.readBytes n) :=
  ⟨fun s _ h => ⟨s.afterRead n, by rw [State.readBytes_ok h]; rfl, rfl, State.SameRun.refl s⟩,
   fun s _ h => ⟨s, by rw [State.readBytes_error h]; rfl, le_rfl, id, State.SameRun.refl s⟩⟩

theorem Moves.readBe (n : Nat) : Moves g n (fun s => (fun p => p.2) <$> s.readBe n) :=
  ⟨fun s _ h => ⟨s.afterReadBe n, by rw [State.readBe_ok h]; rfl, rfl, State.SameRun.refl s⟩,
   fun s _ h => ⟨s, by rw [State.readBe_error h]; rfl, le_rfl, id, State.SameRun.refl s⟩⟩

theorem Moves.readRun (r : Reg) (n : Nat) : Moves g n (fun s => s.readRun r n) :=
  ⟨fun s _ h => ⟨_, State.readRun_ok r h, rfl, State.SameRun.refl s⟩,
   fun s _ h => ⟨s, State.readRun_error r h, le_rfl, id, State.SameRun.refl s⟩⟩

theorem Moves.readField (r : Reg) (n : Nat) : Moves g n (fun s => s.readField r n) :=
  ⟨fun s _ h => ⟨_, State.readField_ok r h, rfl, State.SameRun.refl s⟩,
   fun s _ h => ⟨s, State.readField_error r h, le_rfl, id, State.SameRun.refl s⟩⟩

end Sys2Proof.Machine
end

