-- ==== Sys2Proof/Laws/PerInstr.lean ====
section
/-! SUPPORT. The family `OperationByte`: what the first byte of an operation's control word is, operation by operation. The
numbers are those of the table of 30_encoding.md R102 in its order, after the two commands (notes/assumptions/1.md). -/

namespace Sys2Proof.Laws.OperationByte

/-- An operation's control word begins with its operation byte, which is below 57, and for an operation without operand
that byte is the whole word and reads back as the operation. -/
def Statement (i : Instr) : Prop :=
  (encode i).head? = some (operationByte i) ∧ (operationByte i).toNat < 57 ∧
  (operandOf i = 0 → encode i = [operationByte i])

theorem curInit : Statement (.curInit) := ⟨rfl, by decide, fun _ => rfl⟩
theorem read (n : Nat) : Statement (.read n) := ⟨rfl, by simp [operationByte], fun h => by simp [encode, h, operandBytes]⟩
theorem rdBe (n : Nat) : Statement (.rdBe n) := ⟨rfl, by simp [operationByte], fun h => by simp [encode, h, operandBytes]⟩
theorem fhRdw (k : Fin 8) : Statement (.fhRdw k) := ⟨rfl, by simp [operationByte], fun h => by simp [encode, h, operandBytes]⟩
theorem fhW0Invalid : Statement (.fhW0Invalid) := ⟨rfl, by decide, fun _ => rfl⟩
theorem fhW0Complex : Statement (.fhW0Complex) := ⟨rfl, by decide, fun _ => rfl⟩
theorem fhW0Epoch : Statement (.fhW0Epoch) := ⟨rfl, by decide, fun _ => rfl⟩
theorem fhW0Frame : Statement (.fhW0Frame) := ⟨rfl, by decide, fun _ => rfl⟩
theorem fhW1Version : Statement (.fhW1Version) := ⟨rfl, by decide, fun _ => rfl⟩
theorem fhW1Bps : Statement (.fhW1Bps) := ⟨rfl, by decide, fun _ => rfl⟩
theorem fhW1Arrlen : Statement (.fhW1Arrlen) := ⟨rfl, by decide, fun _ => rfl⟩
theorem fhW1Refep : Statement (.fhW1Refep) := ⟨rfl, by decide, fun _ => rfl⟩
theorem fhW1Srep : Statement (.fhW1Srep) := ⟨rfl, by decide, fun _ => rfl⟩
theorem fhW1Unassigned : Statement (.fhW1Unassigned) := ⟨rfl, by decide, fun _ => rfl⟩
theorem fhW1Station : Statement (.fhW1Station) := ⟨rfl, by decide, fun _ => rfl⟩
theorem fhW2Blklen : Statement (.fhW2Blklen) := ⟨rfl, by decide, fun _ => rfl⟩
theorem fhW2Chpt : Statement (.fhW2Chpt) := ⟨rfl, by decide, fun _ => rfl⟩
theorem fhW2Fgroup : Statement (.fhW2Fgroup) := ⟨rfl, by decide, fun _ => rfl⟩
theorem fhW2Beam : Statement (.fhW2Beam) := ⟨rfl, by decide, fun _ => rfl⟩
theorem fhW3Rsvd16 : Statement (.fhW3Rsvd16) := ⟨rfl, by decide, fun _ => rfl⟩
theorem fhW3Period : Statement (.fhW3Period) := ⟨rfl, by decide, fun _ => rfl⟩
theorem fhW3Rsvd32 : Statement (.fhW3Rsvd32) := ⟨rfl, by decide, fun _ => rfl⟩
theorem fhW4Ipp : Statement (.fhW4Ipp) := ⟨rfl, by decide, fun _ => rfl⟩
theorem fhW5Sync : Statement (.fhW5Sync) := ⟨rfl, by decide, fun _ => rfl⟩
theorem fhW5Rsvd32 : Statement (.fhW5Rsvd32) := ⟨rfl, by decide, fun _ => rfl⟩
theorem fhW6Edv : Statement (.fhW6Edv) := ⟨rfl, by decide, fun _ => rfl⟩
theorem fhW6Eud : Statement (.fhW6Eud) := ⟨rfl, by decide, fun _ => rfl⟩
theorem fhW7Eud : Statement (.fhW7Eud) := ⟨rfl, by decide, fun _ => rfl⟩
theorem decFhdr : Statement (.decFhdr) := ⟨rfl, by decide, fun _ => rfl⟩
theorem ethDst : Statement (.ethDst) := ⟨rfl, by decide, fun _ => rfl⟩
theorem ethSrc : Statement (.ethSrc) := ⟨rfl, by decide, fun _ => rfl⟩
theorem ethLen : Statement (.ethLen) := ⟨rfl, by decide, fun _ => rfl⟩
theorem decEth : Statement (.decEth) := ⟨rfl, by decide, fun _ => rfl⟩
theorem ipVersion : Statement (.ipVersion) := ⟨rfl, by decide, fun _ => rfl⟩
theorem ipIhl : Statement (.ipIhl) := ⟨rfl, by decide, fun _ => rfl⟩
theorem ipTos : Statement (.ipTos) := ⟨rfl, by decide, fun _ => rfl⟩
theorem ipTotlen : Statement (.ipTotlen) := ⟨rfl, by decide, fun _ => rfl⟩
theorem ipId : Statement (.ipId) := ⟨rfl, by decide, fun _ => rfl⟩
theorem ipFlags : Statement (.ipFlags) := ⟨rfl, by decide, fun _ => rfl⟩
theorem ipFrag : Statement (.ipFrag) := ⟨rfl, by decide, fun _ => rfl⟩
theorem ipTtl : Statement (.ipTtl) := ⟨rfl, by decide, fun _ => rfl⟩
theorem ipProto : Statement (.ipProto) := ⟨rfl, by decide, fun _ => rfl⟩
theorem ipCsum : Statement (.ipCsum) := ⟨rfl, by decide, fun _ => rfl⟩
theorem ipSrc : Statement (.ipSrc) := ⟨rfl, by decide, fun _ => rfl⟩
theorem ipDst : Statement (.ipDst) := ⟨rfl, by decide, fun _ => rfl⟩
theorem decIpv4 : Statement (.decIpv4) := ⟨rfl, by decide, fun _ => rfl⟩
theorem udpSport : Statement (.udpSport) := ⟨rfl, by decide, fun _ => rfl⟩
theorem udpDport : Statement (.udpDport) := ⟨rfl, by decide, fun _ => rfl⟩
theorem udpLen : Statement (.udpLen) := ⟨rfl, by decide, fun _ => rfl⟩
theorem udpCsum : Statement (.udpCsum) := ⟨rfl, by decide, fun _ => rfl⟩
theorem decUdp : Statement (.decUdp) := ⟨rfl, by decide, fun _ => rfl⟩
theorem decEncap : Statement (.decEncap) := ⟨rfl, by decide, fun _ => rfl⟩
theorem smpRe : Statement (.smpRe) := ⟨rfl, by decide, fun _ => rfl⟩
theorem smpIm : Statement (.smpIm) := ⟨rfl, by decide, fun _ => rfl⟩
theorem decPayload : Statement (.decPayload) := ⟨rfl, by decide, fun _ => rfl⟩
theorem decodeBare : Statement (.decodeBare) := ⟨rfl, by decide, fun _ => rfl⟩
theorem decodeEncap : Statement (.decodeEncap) := ⟨rfl, by decide, fun _ => rfl⟩

end Sys2Proof.Laws.OperationByte
end

