-- ==== Sys2Proof/Laws/Run.lean ====
section
/-! SUPPORT. Runs of many steps, one step at a time, in terms of `step`. -/

namespace Sys2Proof.Machine

theorem run_zero (s : State) : Host.Core.run Sys2Proof.core 0 s = .next s := rfl

/-- A run of any machine whose first step answers `t` is the rest of the run from `t`. -/
theorem run_of_step (M : Host.Core) (n : Nat) (s t : M.State) (h : M.step s = .next t) : M.run (n + 1) s = M.run n t := by
  simp [Host.Core.run, h]

/-- A run whose first step answers `t` is the rest of the run from `t`. -/
theorem run_succ {s t : State} (n : Nat) (h : step s = .next t) :
    Host.Core.run Sys2Proof.core (n + 1) s = Host.Core.run Sys2Proof.core n t :=
  run_of_step Sys2Proof.core n s t h

/-- With nothing to run and no start request the extractor waits. -/
theorem step_idle {s : State} (h : s.seq = []) (hs : s.start = false) : step s = .next s := by
  simp [step, h, hs]

/-- It waits however long. -/
theorem run_idle {s : State} (n : Nat) (h : s.seq = []) (hs : s.start = false) :
    Host.Core.run Sys2Proof.core n s = .next s := by
  induction n with
  | zero => rfl
  | succ n ih => rw [run_succ n (step_idle h hs), ih]

end Sys2Proof.Machine
end

