-- ==== Sys2Proof/Laws/Samples.lean ====
section
/-! SUPPORT. The sample array as a map from coordinates inside its extents to elements (10_state.md R34, 43_payload.md R207). -/

namespace Sys2Proof.Machine

/-- An update changes the element at its coordinate, if there is one, and no other; it never adds one. -/
theorem SampleArray.at_update (a : SampleArray) (x : Coord) (f : Sample → Sample) (b c p : Nat) :
    (a.update x f).at b c p = if (b, c, p) = (x.b, x.c, x.p) then (a.at b c p).map f else a.at b c p := by
  simp only [SampleArray.at, SampleArray.update, List.getElem?_modify, Prod.mk.injEq]
  by_cases hb : x.b = b
  · by_cases hc : x.c = c
    · by_cases hp : x.p = p
      · subst hb hc hp; cases h : a[x.b]? with
        | none => simp
        | some ch => cases h' : ch[x.c]? with
          | none => simp [h']
          | some po => simp [h']
      · have : ¬ (b = x.b ∧ c = x.c ∧ p = x.p) := fun h => hp h.2.2.symm
        subst hb hc
        rw [if_neg this]
        cases h : a[x.b]? with
        | none => simp
        | some ch => cases h' : ch[x.c]? with
          | none => simp [h']
          | some po => simp [h', hp]
    · have : ¬ (b = x.b ∧ c = x.c ∧ p = x.p) := fun h => hc h.2.1.symm
      subst hb
      rw [if_neg this]
      cases h : a[x.b]? with
      | none => simp
      | some ch => simp [hc]
  · have : ¬ (b = x.b ∧ c = x.c ∧ p = x.p) := fun h => hb h.1.symm
    rw [if_neg this]
    cases h : a[b]? <;> simp [hb]

/-- The array of a geometry without values has exactly the elements of its extents. -/
theorem SampleArray.at_absent (g : Geometry) (b c p : Nat) :
    (SampleArray.absent g).at b c p = if b < g.nBlk ∧ c < g.nCh ∧ p < g.nPol then some ⟨none, none⟩ else none := by
  simp only [SampleArray.at, SampleArray.absent, List.getElem?_replicate]
  by_cases hb : b < g.nBlk
  · by_cases hc : c < g.nCh
    · by_cases hp : p < g.nPol <;> simp [hb, hc, hp]
    · simp [hb, hc]
  · simp [hb]

/-- Two coordinates inside the extents with one linear index are one coordinate (43_payload.md R203). -/
theorem Geometry.linear_inj {g : Geometry} {b c p b' c' p' : Nat} (hc : c < g.nCh) (hp : p < g.nPol) (hc' : c' < g.nCh)
    (hp' : p' < g.nPol) (h : g.linear b c p = g.linear b' c' p') : b = b' ∧ c = c' ∧ p = p' := by
  simp only [Geometry.linear] at h
  have q : p = p' := by
    have := congrArg (· % g.nPol) h
    simpa [Nat.mul_add_mod', Nat.mod_eq_of_lt hp, Nat.mod_eq_of_lt hp'] using this
  subst q
  have r : b * g.nCh + c = b' * g.nCh + c' := Nat.eq_of_mul_eq_mul_right (by omega) (Nat.add_right_cancel h)
  have q : c = c' := by
    have := congrArg (· % g.nCh) r
    simpa [Nat.mul_add_mod', Nat.mod_eq_of_lt hc, Nat.mod_eq_of_lt hc'] using this
  subst q
  exact ⟨Nat.eq_of_mul_eq_mul_right (by omega) (Nat.add_right_cancel r), rfl, rfl⟩

/-- A coordinate inside the extents has its linear index below the number of samples. -/
theorem Geometry.linear_lt {g : Geometry} {b c p : Nat} (hb : b < g.nBlk) (hc : c < g.nCh) (hp : p < g.nPol) :
    g.linear b c p < g.nBlk * g.nCh * g.nPol := by
  simp only [Geometry.linear]
  have h1 : b * g.nCh + c + 1 ≤ g.nBlk * g.nCh := by nlinarith
  nlinarith

end Sys2Proof.Machine
end

