-- ==== Sys2Proof/Tests/Slice0.lean ====
section
/-! SUPPORT. The model's own tests. Expected values are those of spec/95_test_vectors.md (the section is named in each comment)
or follow by hand from a rule; control words are written out from the numbering of notes/assumptions/1.md. Then, for every
statement with hypotheses, a concrete state and operands that meet them. -/

namespace Sys2Proof.Tests

open Sys2Proof.Machine

/-! ### Helpers -/

/-- The state after reset with a buffer presented to an instance of the given geometry. -/
def bufferState (bytes : List Byte) (g : Geometry) : State :=
  { State.reset with mem := Memory.putAll [] 0 bytes, len := bytes.length, geom := g, samples := SampleArray.absent g }

/-- The same, the cursor at `off`. -/
def cursorState (bytes : List Byte) (off : Nat) : State :=
  { bufferState bytes ⟨0, 0, 0⟩ with off := off }

/-- The state after reset with `W[k]` holding a value. -/
def wordState (k : Fin 8) (v : FrameWord) : State :=
  { bufferState [] ⟨0, 0, 0⟩ with w := (Vector.replicate 8 none).set k (some v) }

/-- Something of the next state, if there is one. -/
def after {α : Type} (o : Host.Outcome State Fault Refusal) (f : State → α) : Option α :=
  match o with
  | .next t => some (f t)
  | _ => none

/-- What a register holds after an operation. -/
def regAfter (i : Instr) (s : State) (r : Reg) : Option (BitVec r.width) :=
  (after (exec i s) fun t => t.f.get r).join

/-- The frame header H1 (95_test_vectors.md 2.4). -/
def h1 : List Byte :=
  [0x52, 0x34, 0x56, 0x78, 0x9a, 0xbc, 0xde, 0xf0, 0x30, 0x00, 0x08, 0x04, 0x96, 0x6a, 0xbe, 0xef,
   0x01, 0x00, 0x00, 0x08, 0x00, 0x03, 0x00, 0x11, 0xa5, 0xa5, 0x00, 0x1b, 0xde, 0xad, 0xbe, 0xef,
   0x01, 0x23, 0x45, 0x67, 0x89, 0xab, 0xcd, 0xef, 0xfe, 0xed, 0xca, 0xfe, 0x0b, 0xad, 0xf0, 0x0d,
   0x07, 0x11, 0x22, 0x33, 0x44, 0x55, 0x66, 0x77, 0x88, 0x99, 0xaa, 0xbb, 0xcc, 0xdd, 0xee, 0xff]

/-- The encapsulation headers E1 (3.1). -/
def e1 : List Byte :=
  [0x0c, 0x42, 0xa1, 0x9b, 0x7e, 0x10, 0x00, 0x1b, 0x21, 0xaa, 0xbb, 0xcc, 0x08, 0x00,
   0x45, 0x10, 0x00, 0x64, 0x1c, 0x46, 0x40, 0x00, 0x40, 0x11, 0xb1, 0xe6, 0x0a, 0x11, 0x00, 0x01, 0x0a, 0x11, 0x00, 0xfe,
   0x8c, 0xa1, 0xcb, 0x84, 0x00, 0x50, 0x00, 0x00]

/-- The buffer of P1 (6.1): H1 and the payload of 4.2. -/
def p1 : List Byte :=
  h1 ++ [0x00, 0x01, 0x00, 0x02, 0x80, 0x00, 0x7f, 0xff, 0xff, 0xff, 0x00, 0x00, 0x12, 0x34, 0xab, 0xcd]

/-- The buffer of P2 (6.2): E1, H1 and 8 payload bytes. -/
def p2 : List Byte :=
  e1 ++ h1 ++ [0x00, 0x64, 0x00, 0x00, 0xff, 0x9c, 0x80, 0x01]

/-! ### WellFormed and the decoder: each check refuses an ill-formed term -/

/-- 40_cursor.md R121: `be(READ(n))` for every n, those outside the reference sequence too. -/
theorem test_wellFormed_rdBe :
    (Instr.rdBe 1).wellFormed = true ∧ (Instr.rdBe 8).wellFormed = true ∧ (Instr.rdBe 0).wellFormed = true ∧
    (Instr.rdBe 4).wellFormed = true := by decide

/-- Ill-formed control words are refused by name; no check on an operation itself is left (WellFormed.lean). -/
theorem test_decode_refused :
    decode [] = .error .empty ∧ decode [57] = .error .undefinedOperation ∧ decode [255, 1] = .error .undefinedOperation ∧
    decode [30, 1] = .error .unexpectedOperand ∧ decode [5, 8] = .error .noSuchWord := by decide

/-! ### Decode: every operation's control word, written out -/

theorem test_decode_cursor :
    decode [3] = .ok (.read 0) ∧ decode [3, 6] = .ok (.read 6) ∧ decode [3, 0x2C, 0x01] = .ok (.read 300) ∧
    decode [4, 1] = .ok (.rdBe 1) ∧ decode [4, 2] = .ok (.rdBe 2) ∧ decode [4, 8] = .ok (.rdBe 8) ∧
    decode [4, 4] = .ok (.rdBe 4) ∧ decode [4] = .ok (.rdBe 0) ∧
    decode [2] = .ok .curInit := by
  decide

theorem test_decode_fh :
    decode [5] = .ok (.fhRdw 0) ∧ decode [5, 7] = .ok (.fhRdw 7) ∧ decode [6] = .ok .fhW0Invalid ∧
    decode [7] = .ok .fhW0Complex ∧ decode [8] = .ok .fhW0Epoch ∧ decode [9] = .ok .fhW0Frame ∧
    decode [10] = .ok .fhW1Version ∧ decode [11] = .ok .fhW1Bps ∧ decode [12] = .ok .fhW1Arrlen ∧
    decode [13] = .ok .fhW1Refep ∧ decode [14] = .ok .fhW1Srep ∧ decode [15] = .ok .fhW1Unassigned ∧
    decode [16] = .ok .fhW1Station ∧ decode [17] = .ok .fhW2Blklen ∧ decode [18] = .ok .fhW2Chpt ∧
    decode [19] = .ok .fhW2Fgroup ∧ decode [20] = .ok .fhW2Beam ∧ decode [21] = .ok .fhW3Rsvd16 ∧
    decode [22] = .ok .fhW3Period ∧ decode [23] = .ok .fhW3Rsvd32 ∧ decode [24] = .ok .fhW4Ipp ∧
    decode [25] = .ok .fhW5Sync ∧ decode [26] = .ok .fhW5Rsvd32 ∧ decode [27] = .ok .fhW6Edv ∧
    decode [28] = .ok .fhW6Eud ∧ decode [29] = .ok .fhW7Eud ∧ decode [30] = .ok .decFhdr := by
  decide

theorem test_decode_eth :
    decode [31] = .ok .ethDst ∧ decode [32] = .ok .ethSrc ∧ decode [33] = .ok .ethLen ∧ decode [34] = .ok .decEth := by
  decide

theorem test_decode_ip :
    decode [35] = .ok .ipVersion ∧ decode [36] = .ok .ipIhl ∧ decode [37] = .ok .ipTos ∧
    decode [38] = .ok .ipTotlen ∧ decode [39] = .ok .ipId ∧ decode [40] = .ok .ipFlags ∧ decode [41] = .ok .ipFrag ∧
    decode [42] = .ok .ipTtl ∧ decode [43] = .ok .ipProto ∧ decode [44] = .ok .ipCsum ∧ decode [45] = .ok .ipSrc ∧
    decode [46] = .ok .ipDst ∧ decode [47] = .ok .decIpv4 := by
  decide

theorem test_decode_udp :
    decode [48] = .ok .udpSport ∧ decode [49] = .ok .udpDport ∧ decode [50] = .ok .udpLen ∧
    decode [51] = .ok .udpCsum ∧ decode [52] = .ok .decUdp ∧ decode [53] = .ok .decEncap := by
  decide

theorem test_decode_payload :
    decode [54] = .ok .smpRe ∧ decode [55] = .ok .smpIm ∧ decode [56] = .ok .decPayload := by
  decide

theorem test_decode_commands :
    decode [0] = .ok .decodeBare ∧ decode [1] = .ok .decodeEncap := by
  decide

theorem test_decodeTableWord :
    decodeTableWord 64 0 = some .decodeBare ∧ decodeTableWord 8 1 = some .decodeEncap ∧
    decodeTableWord 16 0x0603 = some (.read 6) ∧ decodeTableWord 8 57 = none := by decide

theorem test_encode_operands :
    encode (.read 300) = [3, 0x2C, 0x01] ∧ encode (.read 0) = [3] ∧ encode (.rdBe 8) = [4, 8] ∧ encode (.fhRdw 5) = [5, 5] ∧
    encode .decodeEncap = [1] := by decide

/-! ### Cursor -/

theorem test_curInit : after (exec .curInit (cursorState [1, 2, 3] 2)) State.off = some 0 := by decide

theorem test_read :
    after (exec (.read 2) (cursorState [0xA1, 0xB2, 0xC3] 1)) (fun t => (t.off, t.retBytes)) =
      some (3, some [0xB2, 0xC3]) := by decide

/-- Even one byte short takes the exception and leaves OFF (R120). -/
theorem test_read_short :
    after (exec (.read 3) (cursorState [0xA1, 0xB2, 0xC3] 1)) (fun t => (t.off, t.status)) =
      some (1, .errTruncated) := by decide

/-- 95_test_vectors.md 3.5: bytes 8c a1 are 36001. -/
theorem test_rdBe :
    after (exec (.rdBe 2) (cursorState [0x8c, 0xa1] 0)) (fun t => (t.off, t.rdbe)) = some (2, some ⟨2, 36001⟩) := by decide

/-- R121 at a width the reference sequence does not use, as a step runs it: 0x01020304, and the exception one byte short. -/
theorem test_rdBe_four :
    after (step ((cursorState [9, 1, 2, 3, 4] 1).withFetchWord 16 0x0404)) (fun t => (t.off, t.rdbe)) =
      some (5, some ⟨4, 0x01020304⟩) ∧
    after (step ((cursorState [9, 1, 2, 3] 1).withFetchWord 16 0x0404)) (fun t => (t.off, t.status)) =
      some (1, .errTruncated) := by decide

theorem test_rdBe_short :
    after (exec (.rdBe 8) (cursorState [1, 2, 3, 4, 5, 6, 7] 0)) (fun t => (t.off, t.status, t.rdbe)) =
      some (0, .errTruncated, none) := by decide

/-! ### Frame header: fields, 95_test_vectors.md 2.1 (the field's mask, then its complement) -/

theorem test_fhW0Invalid :
    regAfter .fhW0Invalid (wordState 0 0x8000000000000000) .w0Invalid = some 0x1 ∧
    regAfter .fhW0Invalid (wordState 0 0x7FFFFFFFFFFFFFFF) .w0Invalid = some 0 := by decide

theorem test_fhW0Complex :
    regAfter .fhW0Complex (wordState 0 0x4000000000000000) .w0Complex = some 0x1 ∧
    regAfter .fhW0Complex (wordState 0 0xBFFFFFFFFFFFFFFF) .w0Complex = some 0 := by decide

theorem test_fhW0Epoch :
    regAfter .fhW0Epoch (wordState 0 0x3FFFFFFF00000000) .w0EpochStartSec = some 0x3FFFFFFF ∧
    regAfter .fhW0Epoch (wordState 0 0xC0000000FFFFFFFF) .w0EpochStartSec = some 0 := by decide

theorem test_fhW0Frame :
    regAfter .fhW0Frame (wordState 0 0x00000000FFFFFFFF) .w0FrameNumber = some 0xFFFFFFFF ∧
    regAfter .fhW0Frame (wordState 0 0xFFFFFFFF00000000) .w0FrameNumber = some 0 := by decide

theorem test_fhW1Version :
    regAfter .fhW1Version (wordState 1 0xE000000000000000) .w1Version = some 0x7 ∧
    regAfter .fhW1Version (wordState 1 0x1FFFFFFFFFFFFFFF) .w1Version = some 0 := by decide

theorem test_fhW1Bps :
    regAfter .fhW1Bps (wordState 1 0x1F00000000000000) .w1BitsPerSample = some 0x1F ∧
    regAfter .fhW1Bps (wordState 1 0xE0FFFFFFFFFFFFFF) .w1BitsPerSample = some 0 := by decide

theorem test_fhW1Arrlen :
    regAfter .fhW1Arrlen (wordState 1 0x00FFFFFF00000000) .w1ArrayLength = some 0xFFFFFF ∧
    regAfter .fhW1Arrlen (wordState 1 0xFF000000FFFFFFFF) .w1ArrayLength = some 0 := by decide

theorem test_fhW1Refep :
    regAfter .fhW1Refep (wordState 1 0x00000000FC000000) .w1RefEpochPeriod = some 0x3F ∧
    regAfter .fhW1Refep (wordState 1 0xFFFFFFFF03FFFFFF) .w1RefEpochPeriod = some 0 := by decide

theorem test_fhW1Srep :
    regAfter .fhW1Srep (wordState 1 0x0000000003C00000) .w1SampleRepresentation = some 0xF ∧
    regAfter .fhW1Srep (wordState 1 0xFFFFFFFFFC3FFFFF) .w1SampleRepresentation = some 0 := by decide

theorem test_fhW1Unassigned :
    regAfter .fhW1Unassigned (wordState 1 0x00000000003F0000) .w1Unassigned = some 0x3F ∧
    regAfter .fhW1Unassigned (wordState 1 0xFFFFFFFFFFC0FFFF) .w1Unassigned = some 0 := by decide

theorem test_fhW1Station :
    regAfter .fhW1Station (wordState 1 0x000000000000FFFF) .w1StationId = some 0xFFFF ∧
    regAfter .fhW1Station (wordState 1 0xFFFFFFFFFFFF0000) .w1StationId = some 0 := by decide

theorem test_fhW2Blklen :
    regAfter .fhW2Blklen (wordState 2 0xFFFF000000000000) .w2BlockLength = some 0xFFFF ∧
    regAfter .fhW2Blklen (wordState 2 0x0000FFFFFFFFFFFF) .w2BlockLength = some 0 := by decide

theorem test_fhW2Chpt :
    regAfter .fhW2Chpt (wordState 2 0x0000FFFF00000000) .w2ChannelsPerThread = some 0xFFFF ∧
    regAfter .fhW2Chpt (wordState 2 0xFFFF0000FFFFFFFF) .w2ChannelsPerThread = some 0 := by decide

theorem test_fhW2Fgroup :
    regAfter .fhW2Fgroup (wordState 2 0x00000000FFFF0000) .w2FreqGroup = some 0xFFFF ∧
    regAfter .fhW2Fgroup (wordState 2 0xFFFFFFFF0000FFFF) .w2FreqGroup = some 0 := by decide

theorem test_fhW2Beam :
    regAfter .fhW2Beam (wordState 2 0x000000000000FFFF) .w2BeamId = some 0xFFFF ∧
    regAfter .fhW2Beam (wordState 2 0xFFFFFFFFFFFF0000) .w2BeamId = some 0 := by decide

theorem test_fhW3Rsvd16 :
    regAfter .fhW3Rsvd16 (wordState 3 0xFFFF000000000000) .w3Reserved16 = some 0xFFFF ∧
    regAfter .fhW3Rsvd16 (wordState 3 0x0000FFFFFFFFFFFF) .w3Reserved16 = some 0 := by decide

theorem test_fhW3Period :
    regAfter .fhW3Period (wordState 3 0x0000FFFF00000000) .w3Period = some 0xFFFF ∧
    regAfter .fhW3Period (wordState 3 0xFFFF0000FFFFFFFF) .w3Period = some 0 := by decide

theorem test_fhW3Rsvd32 :
    regAfter .fhW3Rsvd32 (wordState 3 0x00000000FFFFFFFF) .w3Reserved32 = some 0xFFFFFFFF ∧
    regAfter .fhW3Rsvd32 (wordState 3 0xFFFFFFFF00000000) .w3Reserved32 = some 0 := by decide

theorem test_fhW4Ipp :
    regAfter .fhW4Ipp (wordState 4 0xFFFFFFFFFFFFFFFF) .w4IntervalsPerPeriod = some 0xFFFFFFFFFFFFFFFF ∧
    regAfter .fhW4Ipp (wordState 4 0x0000000000000000) .w4IntervalsPerPeriod = some 0 := by decide

theorem test_fhW5Sync :
    regAfter .fhW5Sync (wordState 5 0xFFFFFFFF00000000) .w5SyncSeq = some 0xFFFFFFFF ∧
    regAfter .fhW5Sync (wordState 5 0x00000000FFFFFFFF) .w5SyncSeq = some 0 := by decide

theorem test_fhW5Rsvd32 :
    regAfter .fhW5Rsvd32 (wordState 5 0x00000000FFFFFFFF) .w5Reserved32 = some 0xFFFFFFFF ∧
    regAfter .fhW5Rsvd32 (wordState 5 0xFFFFFFFF00000000) .w5Reserved32 = some 0 := by decide

theorem test_fhW6Edv :
    regAfter .fhW6Edv (wordState 6 0xFF00000000000000) .w6ExtDataVersion = some 0xFF ∧
    regAfter .fhW6Edv (wordState 6 0x00FFFFFFFFFFFFFF) .w6ExtDataVersion = some 0 := by decide

theorem test_fhW6Eud :
    regAfter .fhW6Eud (wordState 6 0x00FFFFFFFFFFFFFF) .w6ExtUserData = some 0xFFFFFFFFFFFFFF ∧
    regAfter .fhW6Eud (wordState 6 0xFF00000000000000) .w6ExtUserData = some 0 := by decide

theorem test_fhW7Eud :
    regAfter .fhW7Eud (wordState 7 0xFFFFFFFFFFFFFFFF) .w7ExtUserData = some 0xFFFFFFFFFFFFFFFF ∧
    regAfter .fhW7Eud (wordState 7 0x0000000000000000) .w7ExtUserData = some 0 := by decide

/-- W[3] of H1 (2.4): the 8 bytes at address 24. -/
theorem test_fhRdw :
    after (exec (.fhRdw 3) (cursorState h1 24)) (fun t => (t.off, t.word 3, t.word 2)) =
      some (32, some 0xA5A5001BDEADBEEF, none) := by decide

theorem test_fhRdw_short :
    after (exec (.fhRdw 7) (cursorState h1 57)) (fun t => (t.off, t.status, t.word 7)) =
      some (57, .errTruncated, none) := by decide

/-- Some fields of H1 (2.4), and the two pairs of one name (2.5). -/
theorem test_decFhdr :
    after (exec .decFhdr (cursorState h1 0)) (fun t => (t.off, t.f.w0EpochStartSec, t.f.w3Reserved32, t.f.w5Reserved32)) =
      some (64, some 0x12345678, some 0xDEADBEEF, some 0x0BADF00D) ∧
    after (exec .decFhdr (cursorState h1 0)) (fun t => (t.f.w1Unassigned, t.f.w6ExtUserData, t.f.w7ExtUserData)) =
      some (some 42, some 0x11223344556677, some 0x8899AABBCCDDEEFF) := by decide +kernel

/-- FH_ENCODE of what was decoded is H1 (2.6). -/
theorem test_decFhdr_round_trip :
    after (exec .decFhdr (cursorState h1 0)) (fun t => t.f.frameHeader.map FrameHeader.encode) = some (some h1) := by
  decide +kernel

/-! ### Encapsulation: E1, 95_test_vectors.md 3.1 -/

theorem test_ethDst :
    after (exec .ethDst (cursorState e1 0)) (fun t => (t.off, t.f.ethDst)) = some (6, some 0x0c42a19b7e10) := by decide

theorem test_ethSrc :
    after (exec .ethSrc (cursorState e1 6)) (fun t => (t.off, t.f.ethSrc)) = some (12, some 0x001b21aabbcc) := by decide

theorem test_ethLen :
    after (exec .ethLen (cursorState e1 12)) (fun t => (t.off, t.f.ethLen)) = some (14, some 0x0800) := by decide

theorem test_ipTos :
    after (exec .ipTos (cursorState e1 15)) (fun t => (t.off, t.f.ipTos)) = some (16, some 0x10) := by decide

theorem test_ipTotlen :
    after (exec .ipTotlen (cursorState e1 16)) (fun t => (t.off, t.f.ipTotalLength)) = some (18, some 100) := by decide

theorem test_ipId :
    after (exec .ipId (cursorState e1 18)) (fun t => (t.off, t.f.ipIdentification)) = some (20, some 0x1C46) := by decide

theorem test_ipTtl :
    after (exec .ipTtl (cursorState e1 22)) (fun t => (t.off, t.f.ipTtl)) = some (23, some 64) := by decide

theorem test_ipProto :
    after (exec .ipProto (cursorState e1 23)) (fun t => (t.off, t.f.ipProtocol)) = some (24, some 17) := by decide

theorem test_ipCsum :
    after (exec .ipCsum (cursorState e1 24)) (fun t => (t.off, t.f.ipChecksum)) = some (26, some 0xB1E6) := by decide

theorem test_ipSrc :
    after (exec .ipSrc (cursorState e1 26)) (fun t => (t.off, t.f.ipSrc)) = some (30, some 0x0a110001) := by decide

theorem test_ipDst :
    after (exec .ipDst (cursorState e1 30)) (fun t => (t.off, t.f.ipDst)) = some (34, some 0x0a1100fe) := by decide

theorem test_udpSport :
    after (exec .udpSport (cursorState e1 34)) (fun t => (t.off, t.f.udpSrcPort)) = some (36, some 36001) := by decide

theorem test_udpDport :
    after (exec .udpDport (cursorState e1 36)) (fun t => (t.off, t.f.udpDstPort)) = some (38, some 52100) := by decide

theorem test_udpLen :
    after (exec .udpLen (cursorState e1 38)) (fun t => (t.off, t.f.udpLength)) = some (40, some 80) := by decide

theorem test_udpCsum :
    after (exec .udpCsum (cursorState e1 40)) (fun t => (t.off, t.f.udpChecksum)) = some (42, some 0) := by decide

/-- 3.2, rows 0x54 and 0x45: the nibble order. -/
theorem test_ipVersion :
    regAfter .ipVersion { cursorState [] 0 with rdbe := some ⟨1, 0x54⟩ } .ipVersion = some 5 ∧
    regAfter .ipVersion { cursorState [] 0 with rdbe := some ⟨1, 0x45⟩ } .ipVersion = some 4 := by decide

theorem test_ipIhl :
    regAfter .ipIhl { cursorState [] 0 with rdbe := some ⟨1, 0x54⟩ } .ipIhl = some 4 ∧
    regAfter .ipIhl { cursorState [] 0 with rdbe := some ⟨1, 0x45⟩ } .ipIhl = some 5 := by decide

/-- 3.3, rows 0xA123 and 0x20B9. -/
theorem test_ipFlags :
    regAfter .ipFlags { cursorState [] 0 with rdbe := some ⟨2, 0xA123⟩ } .ipFlags = some 5 ∧
    regAfter .ipFlags { cursorState [] 0 with rdbe := some ⟨2, 0x20B9⟩ } .ipFlags = some 1 := by decide

theorem test_ipFrag :
    regAfter .ipFrag { cursorState [] 0 with rdbe := some ⟨2, 0xA123⟩ } .ipFragOffset = some 0x0123 ∧
    regAfter .ipFrag { cursorState [] 0 with rdbe := some ⟨2, 0xFFFF⟩ } .ipFragOffset = some 0x1FFF := by decide

theorem test_decEth :
    after (exec .decEth (cursorState e1 0)) (fun t => (t.off, t.f.ethDst, t.f.ethLen)) =
      some (14, some 0x0c42a19b7e10, some 0x0800) := by decide

theorem test_decIpv4 :
    after (exec .decIpv4 (cursorState e1 14)) (fun t => (t.off, t.f.ipVersion, t.f.ipFlags, t.f.ipDst)) =
      some (34, some 4, some 2, some 0x0a1100fe) := by decide

theorem test_decUdp :
    after (exec .decUdp (cursorState e1 34)) (fun t => (t.off, t.f.udpSrcPort, t.f.udpLength)) =
      some (42, some 36001, some 80) := by decide

/-- E1 decodes and its headers, written back, are E1. -/
theorem test_decEncap :
    after (exec .decEncap (cursorState e1 0)) (fun t => (t.off, t.f.encapHeaders.map EncapHeaders.encode)) =
      some (42, some e1) := by decide +kernel

/-- 5.1, LEN = 33: no field is left, though the Ethernet header was there. -/
theorem test_decEncap_short :
    after (exec .decEncap (cursorState (e1.take 33) 0)) (fun t => (t.off, t.status, t.f.ethDst)) =
      some (30, .errTruncated, none) := by decide +kernel

/-! ### Payload -/

theorem test_smpRe :
    after (exec .smpRe (bufferState [0x80, 0x00] ⟨1, 1, 2⟩)) (fun t => (t.off, t.samples, t.coord)) =
      some (2, [[[⟨some 0x8000, none⟩, ⟨none, none⟩]]], ⟨0, 0, 0⟩) := by decide

theorem test_smpIm :
    after (exec .smpIm { bufferState [0x7f, 0xff] ⟨2, 1, 2⟩ with coord := ⟨0, 0, 1⟩ }) (fun t => (t.off, t.samples, t.coord)) =
      some (2, [[[⟨none, none⟩, ⟨none, some 0x7fff⟩]], [[⟨none, none⟩, ⟨none, none⟩]]], ⟨1, 0, 0⟩) := by decide

/-- 4.2, second case: real first, polarization fastest. -/
theorem test_decPayload :
    after (exec .decPayload (bufferState [0, 1, 0, 2, 0, 3, 0, 4, 0, 5, 0, 6, 0, 7, 0, 8] ⟨1, 2, 2⟩))
      (fun t => t.samples.pairs) = some (some [[[(1, 2), (3, 4)], [(5, 6), (7, 8)]]]) := by decide +kernel

theorem test_decPayload_short :
    after (exec .decPayload (bufferState [0, 1, 0, 2, 0, 3, 0] ⟨1, 1, 2⟩)) (fun t => (t.off, t.status, t.samples)) =
      some (6, .errTruncated, [[[⟨none, none⟩, ⟨none, none⟩]]]) := by decide +kernel

/-! ### Transactions -/

/-- P1 (6.1). -/
theorem test_decodeBare :
    after (exec .decodeBare (bufferState p1 ⟨1, 2, 2⟩)) (fun t => (t.status, t.f.encapV, t.f.ethDst)) =
      some (.ok, some 0, none) ∧
    after (exec .decodeBare (bufferState p1 ⟨1, 2, 2⟩)) (fun t => t.samples.pairs) =
      some (some [[[(1, 2), (0x8000, 0x7FFF)], [(0xFFFF, 0), (0x1234, 0xABCD)]]]) := by decide +kernel

/-- P5 (a) (6.5): the wrong mode is not noticed. -/
theorem test_decodeBare_wrong_mode :
    after (exec .decodeBare (bufferState p2 ⟨1, 1, 2⟩)) (fun t => (t.status, t.off, t.f.w1ArrayLength)) =
      some (.ok, 72, some 0xAABBCC) ∧
    after (exec .decodeBare (bufferState p2 ⟨1, 1, 2⟩)) (fun t => t.samples.pairs) =
      some (some [[[(0x0011, 0xA5A5), (0x001B, 0xDEAD)]]]) := by decide +kernel

/-- P2 (6.2). -/
theorem test_decodeEncap :
    after (exec .decodeEncap (bufferState p2 ⟨1, 1, 2⟩)) (fun t => (t.status, t.off, t.f.w1StationId)) =
      some (.ok, 114, some 0xBEEF) ∧
    after (exec .decodeEncap (bufferState p2 ⟨1, 1, 2⟩)) (fun t => t.samples.pairs) =
      some (some [[[(100, 0), (65436, 32769)]]]) := by decide +kernel

/-- P3 (6.3): one byte less. -/
theorem test_decodeEncap_short :
    after (exec .decodeEncap (bufferState (p2.take 113) ⟨1, 1, 2⟩)) (fun t => (t.status, t.off)) =
      some (.errTruncated, 112) ∧
    after (exec .decodeEncap (bufferState (p2.take 113) ⟨1, 1, 2⟩)) (fun t => t.f) = some RegFile.absent := by
  decide +kernel

/-! ### The host's view -/

/-- Two steps after start (44_packet.md R215): IDLE with the request consumed, then the outcome. -/
theorem test_start :
    after (step { cursorState h1 7 with start := true }) (fun t => (t.status, t.start, t.seq)) =
      some (.idle, false, [.decodeBare]) := by decide

/-- 10_state.md R24: a start begins at OFF = 0, though OFF stood past the end of a shorter buffer presented since. -/
theorem test_start_after_shorter_buffer :
    ((cursorState h1 64).hostPresent [1, 2] .bare).map (fun u => (decide (u.len < u.off), u.hostStart.map State.off)) =
      .ok (true, .ok 0) := by decide

/-- 5.2. -/
theorem test_texts :
    hexText 0 = "0x0".toList ∧ hexText 0xFEEDCAFE = "0xfeedcafe".toList ∧ hexText 0x00ABCDEF = "0xabcdef".toList ∧
    hexText 0x10 = "0x10".toList ∧ macText 0x00010aff1009 = "00:01:0a:ff:10:09".toList ∧
    ip4Text 0x00000000 = "0.0.0.0".toList ∧ ip4Text 0x0a1100fe = "10.17.0.254".toList := by decide

/-- The next step after `withFetchWord` runs the table word's operation. -/
theorem test_withFetchWord :
    after (step (State.reset.withFetchWord 8 1)) (fun t => (t.status, t.off)) = some (.errTruncated, 0) ∧
    after (step (State.reset.withFetchWord 8 2)) (fun t => (t.status, t.off)) = some (.idle, 0) := by decide

/-! ### What the statements suppose can be met -/

theorem witness_ResetThenStartRunsAsStartAlone :
    (∃ t, (cursorState h1 40).hostReset.hostStart = .ok t) ∧ ∃ u, (cursorState h1 40).hostStart = .ok u :=
  ⟨⟨_, rfl⟩, ⟨_, rfl⟩⟩

/-- The last byte can be read; one more cannot. -/
theorem witness_ReadDeliversNextBytesOrTruncates :
    (cursorState [1, 2, 3] 1).off ≤ (cursorState [1, 2, 3] 1).len ∧
    (cursorState [1, 2, 3] 1).off + 2 ≤ (cursorState [1, 2, 3] 1).len ∧
    (cursorState [1, 2, 3] 1).len < (cursorState [1, 2, 3] 1).off + 3 := by decide

theorem witness_ReadBigEndianReturnsValue :
    2 ≤ (cursorState [1, 2, 3] 1).len - (cursorState [1, 2, 3] 1).off ∧
    (cursorState [1, 2, 3] 1).len - (cursorState [1, 2, 3] 1).off < 3 := by decide

/-- The first and the last byte of a container, the lowest and the highest bit. -/
theorem witness_BitOfByteIsBitOfContainer :
    ((be (Memory.bytes [(7, 1), (9, 128)] 7 3)).testBit (8 * (3 - 1 - 0) + 0) = true ∧ (0 : Nat) < 3 ∧ (0 : Nat) < 8) ∧
    ((be (Memory.bytes [(7, 1), (9, 128)] 7 3)).testBit (8 * (3 - 1 - 2) + 7) = true ∧ (2 : Nat) < 3 ∧ (7 : Nat) < 8) ∧
    (7 : Nat) < 8 ∧ (63 : Nat) < 64 := by decide

theorem witness_ReadsRunInSequence :
    (cursorState [1, 2, 3, 4, 5] 0).off = 0 ∧ (cursorState [1, 2, 3, 4, 5] 0).start = false ∧
    (cursorState [1, 2, 3, 4, 5] 0).status = .idle ∧
    [2, 0].sum + 3 ≤ (cursorState [1, 2, 3, 4, 5] 0).len ∧ (cursorState [1, 2, 3, 4, 5] 0).len < [2, 0].sum + 4 := by decide

theorem witness_SplitReadEqualsWholeRead :
    1 + 2 ≤ (cursorState [1, 2, 3, 4] 1).len - (cursorState [1, 2, 3, 4] 1).off := by decide

/-- For the four statements about field operations, one word each. -/
theorem witness_FieldsAreCut :
    ∀ k : Fin 8, (wordState k 0xC000000000000001).word k = some 0xC000000000000001 := by decide

theorem witness_FieldOfUnreadWordHasNoValue : ∀ k : Fin 8, (cursorState h1 0).word k = none := by decide

theorem witness_WordReadFillsItsWord :
    8 ≤ (cursorState h1 56).len - (cursorState h1 56).off ∧ (cursorState h1 57).len - (cursorState h1 57).off < 8 := by decide

theorem witness_EthernetAndUdpFieldsAreRead :
    6 ≤ (cursorState e1 36).len - (cursorState e1 36).off ∧ 2 ≤ (cursorState e1 40).len - (cursorState e1 40).off := by decide

theorem witness_Ipv4FieldsAreRead :
    1 ≤ (cursorState e1 41).len - (cursorState e1 41).off ∧ 2 ≤ (cursorState e1 40).len - (cursorState e1 40).off ∧
    4 ≤ (cursorState e1 38).len - (cursorState e1 38).off := by decide

/-- A byte, a 16-bit value, and neither. -/
theorem witness_Ipv4SharedFieldsAreCut :
    ({ cursorState [] 0 with rdbe := some ⟨1, 0xFF⟩ } : State).rdbe = some ⟨1, (0xFF : BitVec 8).toNat⟩ ∧
    ({ cursorState [] 0 with rdbe := some ⟨2, 0xFFFF⟩ } : State).rdbe = some ⟨2, (0xFFFF : BitVec 16).toNat⟩ ∧
    (∀ v, (cursorState [] 0).rdbe ≠ some ⟨1, v⟩) ∧ (∀ v, (cursorState [] 0).rdbe ≠ some ⟨2, v⟩) :=
  ⟨rfl, rfl, fun _ => nofun, fun _ => nofun⟩

/-- One byte short for a word and for an address; nothing left for every one of them. -/
theorem witness_ShortFieldReadTakesTheException :
    (cursorState h1 57).len - (cursorState h1 57).off < (Instr.fhRdw 7).needs (cursorState h1 57).geom ∧
    (cursorState e1 37).len - (cursorState e1 37).off < Instr.ethDst.needs (cursorState e1 37).geom ∧
    ∀ i ∈ ([.ethDst, .ethSrc, .ethLen, .ipTos, .ipTotlen, .ipId, .ipTtl, .ipProto, .ipCsum, .ipSrc,
      .ipDst, .udpSport, .udpDport, .udpLen, .udpCsum, .smpRe, .smpIm] : List Instr),
      (cursorState [9] 1).len - (cursorState [9] 1).off < i.needs (cursorState [9] 1).geom := by decide

/-- A coordinate that is an element, one that is not. -/
theorem witness_SamplePartsAreReadAtTheCoordinate :
    2 ≤ (bufferState [1, 2] ⟨1, 1, 1⟩).len - (bufferState [1, 2] ⟨1, 1, 1⟩).off ∧
    (bufferState [1, 2] ⟨1, 1, 1⟩).samples.at 0 0 0 = some ⟨none, none⟩ ∧
    2 ≤ (bufferState [1, 2] ⟨1, 0, 1⟩).len - (bufferState [1, 2] ⟨1, 0, 1⟩).off ∧
    (bufferState [1, 2] ⟨1, 0, 1⟩).samples.at 0 0 0 = none := by decide

/-- Exactly the header is left. -/
theorem witness_EncapsulationStagesDecodeTheirHeaders :
    Instr.decEth.needs (cursorState e1 28).geom ≤ (cursorState e1 28).len - (cursorState e1 28).off ∧
    Instr.decIpv4.needs (cursorState e1 22).geom ≤ (cursorState e1 22).len - (cursorState e1 22).off ∧
    Instr.decUdp.needs (cursorState e1 34).geom ≤ (cursorState e1 34).len - (cursorState e1 34).off := by decide

theorem witness_EncapsulationDecodesThreeHeaders :
    42 ≤ (cursorState e1 0).len - (cursorState e1 0).off := by decide

/-- For the statements about DEC.FHDR: exactly 64 bytes are left. -/
theorem witness_FrameHeaderStageDecodesAllFields :
    64 ≤ (cursorState h1 0).len - (cursorState h1 0).off := by decide

theorem witness_PayloadStageFillsEverySample :
    (bufferState [1, 2, 3, 4, 5, 6, 7, 8] ⟨1, 1, 2⟩).geom.payloadBytes ≤
      (bufferState [1, 2, 3, 4, 5, 6, 7, 8] ⟨1, 1, 2⟩).len - (bufferState [1, 2, 3, 4, 5, 6, 7, 8] ⟨1, 1, 2⟩).off ∧
    ∀ b c p, b < 1 → c < 1 → p < 2 →
      ((bufferState [1, 2, 3, 4, 5, 6, 7, 8] ⟨1, 1, 2⟩).samples.at b c p).isSome = true := by
  refine ⟨by decide, fun b c p hb hc hp => ?_⟩
  obtain rfl : b = 0 := by omega
  obtain rfl : c = 0 := by omega
  rcases (by omega : p = 0 ∨ p = 1) with rfl | rfl <;> rfl

/-- One byte short of each stage. -/
theorem witness_ShortStageExposesNothing :
    (cursorState e1 29).len - (cursorState e1 29).off < Instr.decEth.needs (cursorState e1 29).geom ∧
    (cursorState e1 23).len - (cursorState e1 23).off < Instr.decIpv4.needs (cursorState e1 23).geom ∧
    (cursorState e1 35).len - (cursorState e1 35).off < Instr.decUdp.needs (cursorState e1 35).geom ∧
    (cursorState e1 1).len - (cursorState e1 1).off < Instr.decEncap.needs (cursorState e1 1).geom ∧
    (cursorState h1 1).len - (cursorState h1 1).off < Instr.decFhdr.needs (cursorState h1 1).geom ∧
    (bufferState [1, 2, 3] ⟨1, 1, 1⟩).len - (bufferState [1, 2, 3] ⟨1, 1, 1⟩).off <
      Instr.decPayload.needs (bufferState [1, 2, 3] ⟨1, 1, 1⟩).geom := by decide

/-- P1 and P2 have exactly the bytes needed. -/
theorem witness_BareDecodeYieldsItsPacket :
    64 + (bufferState p1 ⟨1, 2, 2⟩).geom.payloadBytes ≤ (bufferState p1 ⟨1, 2, 2⟩).len := by decide

theorem witness_EncapDecodeYieldsItsPacket :
    106 + (bufferState p2 ⟨1, 1, 2⟩).geom.payloadBytes ≤ (bufferState p2 ⟨1, 1, 2⟩).len := by decide

/-- The same inputs after another history. -/
theorem witness_OutcomeDependsOnInputsAlone :
    ({ cursorState h1 30 with status := .errTruncated } : State).mem = (cursorState h1 0).mem ∧
    ({ cursorState h1 30 with status := .errTruncated } : State).len = (cursorState h1 0).len ∧
    ({ cursorState h1 30 with status := .errTruncated } : State).geom = (cursorState h1 0).geom ∧
    (∃ t, exec Mode.bare.command (cursorState h1 0) = .next t) ∧
    ∃ v, exec Mode.bare.command { cursorState h1 30 with status := .errTruncated } = .next v :=
  ⟨rfl, rfl, rfl, (by rw [exec_eq_settle]; exact settle_next _), (by rw [exec_eq_settle]; exact settle_next _)⟩

/-- P1, and P1 with two more bytes. -/
theorem witness_SurplusBytesAreIgnored :
    Mode.bare.neededBytes ⟨1, 2, 2⟩ ≤ (bufferState p1 ⟨1, 2, 2⟩).len ∧
    Mode.bare.neededBytes ⟨1, 2, 2⟩ ≤ (bufferState (p1 ++ [1, 2]) ⟨1, 2, 2⟩).len ∧
    (∀ a, a < Mode.bare.neededBytes ⟨1, 2, 2⟩ →
      (bufferState (p1 ++ [1, 2]) ⟨1, 2, 2⟩).mem.get a = (bufferState p1 ⟨1, 2, 2⟩).mem.get a) ∧
    (∃ t, exec Mode.bare.command (bufferState p1 ⟨1, 2, 2⟩) = .next t) ∧
    ∃ v, exec Mode.bare.command (bufferState (p1 ++ [1, 2]) ⟨1, 2, 2⟩) = .next v :=
  ⟨by decide, by decide, by decide +kernel, (by rw [exec_eq_settle]; exact settle_next _), (by rw [exec_eq_settle]; exact settle_next _)⟩

/-- A buffer with one nonzero byte at 42, and the same moved to 0. -/
theorem witness_EncapsulationOnlyMovesTheCursor :
    42 ≤ ({ cursorState [] 0 with mem := [(42, 5)], len := 106 } : State).len ∧
    ({ cursorState [] 0 with mem := [(0, 5)], len := 64 } : State).len = 106 - 42 ∧
    (∀ a, Memory.get [(0, 5)] a = Memory.get [(42, 5)] (a + 42)) ∧
    (∃ t, exec .decodeEncap { cursorState [] 0 with mem := [(42, 5)], len := 106 } = .next t) ∧
    ∃ v, exec .decodeBare { cursorState [] 0 with mem := [(0, 5)], len := 64 } = .next v :=
  ⟨by decide, rfl, fun a => by cases a <;> simp, (by rw [exec_eq_settle]; exact settle_next _), (by rw [exec_eq_settle]; exact settle_next _)⟩

/-- The field values of H1 (2.4). -/
def h1Fields : FrameHeader :=
  ⟨⟨0, 1, 0x12345678, 0x9ABCDEF0⟩, ⟨1, 16, 0x000804, 37, 9, 42, 0xBEEF⟩, ⟨0x0100, 0x0008, 0x0003, 0x0011⟩,
   ⟨0xA5A5, 0x001B, 0xDEADBEEF⟩, ⟨0x0123456789ABCDEF⟩, ⟨0xFEEDCAFE, 0x0BADF00D⟩, ⟨0x07, 0x11223344556677⟩,
   ⟨0x8899AABBCCDDEEFF⟩⟩

theorem witness_EncodedHeaderDecodesToItsFields :
    64 ≤ (cursorState h1 0).len - (cursorState h1 0).off ∧
    (cursorState h1 0).mem.bytes (cursorState h1 0).off 64 = h1Fields.encode := by decide +kernel

/-- The field values of E1 (3.1). -/
def e1Fields : EncapHeaders :=
  ⟨⟨0x0c42a19b7e10, 0x001b21aabbcc, 0x0800⟩,
   ⟨4, 5, 0x10, 100, 7238, 2, 0, 64, 17, 0xB1E6, 0x0a110001, 0x0a1100fe⟩, ⟨0x8CA1, 0xCB84, 0x0050, 0⟩⟩

theorem witness_EncapsulationHeadersDetermineTheirBytes :
    42 ≤ (cursorState e1 0).len - (cursorState e1 0).off ∧
    (cursorState e1 0).mem.bytes (cursorState e1 0).off 42 = e1Fields.encode := by decide +kernel

theorem witness_FieldSeesExactlyItsOwnBits :
    Reg.w3Period.isFrame = true ∧ 64 ≤ (cursorState h1 0).len - (cursorState h1 0).off ∧
    64 ≤ (cursorState p1 16).len - (cursorState p1 16).off ∧
    (∃ t, exec .decFhdr (cursorState h1 0) = .next t) ∧ ∃ v, exec .decFhdr (cursorState p1 16) = .next v :=
  ⟨rfl, by decide, by decide, (by rw [exec_eq_settle]; exact settle_next _), (by rw [exec_eq_settle]; exact settle_next _)⟩

theorem witness_ZeroAndOnesHeaders :
    64 ≤ (cursorState (List.replicate 64 0) 0).len - (cursorState (List.replicate 64 0) 0).off ∧
    (∀ i, i < 64 → (cursorState (List.replicate 64 0) 0).mem.get (0 + i) = 0) ∧
    64 ≤ (cursorState (List.replicate 64 0xFF) 0).len - (cursorState (List.replicate 64 0xFF) 0).off ∧
    ∀ i, i < 64 → (cursorState (List.replicate 64 0xFF) 0).mem.get (0 + i) = 0xFF := by decide +kernel

/-- H1 and the payload pattern for two samples (as 4.1). -/
theorem witness_PayloadPatternIsReproduced :
    64 + (bufferState (h1 ++ [0, 0, 0, 0, 0, 1, 0, 0]) ⟨1, 2, 1⟩).geom.payloadBytes ≤
      (bufferState (h1 ++ [0, 0, 0, 0, 0, 1, 0, 0]) ⟨1, 2, 1⟩).len ∧
    (∀ i, i < 1 * 2 * 1 →
      (bufferState (h1 ++ [0, 0, 0, 0, 0, 1, 0, 0]) ⟨1, 2, 1⟩).beAt (64 + 4 * i) 2 = i % 65536 ∧
      (bufferState (h1 ++ [0, 0, 0, 0, 0, 1, 0, 0]) ⟨1, 2, 1⟩).beAt (64 + 4 * i + 2) 2 = 0) ∧
    ∃ t, exec .decodeBare (bufferState (h1 ++ [0, 0, 0, 0, 0, 1, 0, 0]) ⟨1, 2, 1⟩) = .next t :=
  ⟨by decide, by decide +kernel, (by rw [exec_eq_settle]; exact settle_next _)⟩

/-- A state with `STATUS = OK` and the samples given. -/
def sampledState (a : SampleArray) : State :=
  { bufferState [] ⟨1, 1, 1⟩ with status := .ok, f := RegFile.absent.put .encapV (some 1), samples := a }

/-- A register with a value and one without; outside OK; then an element with both parts, no element, and elements that
lack one part. -/
theorem witness_HostReadsResultsOnlyWhileOk :
    ((sampledState []).status = .ok ∧ (sampledState []).f.get .encapV = some 1) ∧
    (∀ v, (sampledState []).hostRead .w0FrameNumber ≠ .ok v) ∧
    (∀ v, (cursorState h1 0).hostRead .w0FrameNumber ≠ .ok v) ∧
    ((cursorState h1 0).status ≠ .ok ∧ ({ cursorState h1 0 with status := .errTruncated } : State).status ≠ .ok) ∧
    (sampledState [[[⟨some 3, some 4⟩]]]).samples.at 0 0 0 = some ⟨some 3, some 4⟩ ∧
    (sampledState [[[⟨some 3, some 4⟩]]]).samples.at 0 0 1 = none ∧
    (sampledState [[[⟨some 3, none⟩]]]).samples.at 0 0 0 = some ⟨some 3, none⟩ ∧
    (sampledState [[[⟨none, some 4⟩]]]).samples.at 0 0 0 = some ⟨none, some 4⟩ :=
  ⟨⟨rfl, rfl⟩, fun _ => nofun, fun _ => nofun, by decide, by decide, by decide, by decide, by decide⟩

/-- A state with `STATUS = OK` and a Packet: the 64-byte buffer of zeros decoded on the geometry (0, 0, 0) (6.6 (a)). -/
def okState : State :=
  { cursorState (List.replicate 64 0) 64 with
    status := .ok
    f := ⟨some 0, none, none, none, none, none, none, none, none, none, none, none, none, none, none, none, none, none, none, none,
      some 0, some 0, some 0, some 0, some 0, some 0, some 0, some 0, some 0, some 0, some 0, some 0, some 0, some 0, some 0,
      some 0, some 0, some 0, some 0, some 0, some 0, some 0, some 0, some 0⟩ }

theorem okState_inv : okState.Inv := by
  refine ⟨by decide +kernel, by decide +kernel, by decide, .inl rfl, nofun, fun h => absurd rfl h, fun _ => ⟨.bare, rfl, ?_, ?_, ?_, ?_⟩⟩
  · intro r h; cases r <;> first | rfl | exact nomatch h
  · intro r h; cases r <;> first | rfl | exact nomatch h
  · rintro b c p ⟨h, -⟩; exact absurd h (Nat.not_lt_zero b)
  · intro b c p _; rfl

theorem witness_PacketIsThereExactlyWhenOk : okState.Inv ∧ okState.packet.isSome = true := ⟨okState_inv, by decide⟩

/-- No run in progress; an operation still to run; a standing start request alone. -/
theorem witness_HostPresentsThePacketBytes :
    ((cursorState h1 0).seq = [] ∧ (cursorState h1 0).start = false) ∧
    ({ cursorState h1 0 with seq := [.decodeBare] } : State).seq ≠ [] ∧
    (({ cursorState h1 0 with start := true } : State).seq = [] ∧
      ({ cursorState h1 0 with start := true } : State).start = true) := by decide

/-- 64 bytes are enough, 63 are not. -/
theorem witness_StartedTransactionReachesItsEnd :
    (∃ u v, (cursorState [] 0).hostPresent (List.replicate 64 7) .bare = .ok u ∧ u.hostStart = .ok v) ∧
    Mode.bare.neededBytes (cursorState [] 0).geom ≤ (List.replicate 64 (7 : Byte)).length ∧
    (∃ u v, (cursorState [] 0).hostPresent (List.replicate 63 7) .bare = .ok u ∧ u.hostStart = .ok v) ∧
    (List.replicate 63 (7 : Byte)).length < Mode.bare.neededBytes (cursorState [] 0).geom :=
  ⟨⟨_, _, rfl, rfl⟩, by decide, ⟨_, _, rfl, rfl⟩, by decide⟩

theorem witness_StepRunsTheDecodedOperation :
    ({ cursorState h1 0 with seq := [.read 8, .curInit] } : State).seq = .read 8 :: [.curInit] ∧
    ({ cursorState h1 0 with seq := [.read 8, .curInit] } : State).start = false ∧
    decodeTableWord 16 0x0803 = some (.read 8) := by decide

/-- The four shapes: idle, a standing request, a request beside an operation, an operation alone. -/
theorem witness_StartIsAcceptedOnlyWhenIdle :
    ((cursorState h1 0).seq = [] ∧ (cursorState h1 0).start = false) ∧
    (({ cursorState h1 0 with start := true } : State).seq = [] ∧
      ({ cursorState h1 0 with start := true } : State).start = true) ∧
    (({ cursorState h1 0 with start := true, seq := [.decodeBare] } : State).seq ≠ [] ∧
      ({ cursorState h1 0 with start := true, seq := [.decodeBare] } : State).start = true) ∧
    (({ cursorState h1 0 with seq := [.decodeBare] } : State).seq ≠ [] ∧
      ({ cursorState h1 0 with seq := [.decodeBare] } : State).start = false) := by decide

/-- Boundary words of each clause: operation bytes 57 and 56, a nonzero byte late in a plain word, the words above 7; a
table word that does not decode. -/
theorem witness_UndecodableControlWordIsRefused :
    decodeTableWord 8 57 = none ∧
    (56 < (57 : Byte).toNat ∧ 56 < (255 : Byte).toNat) ∧
    ((0 : Byte).toNat ≤ 56 ∧ (56 : Byte).toNat ≤ 56 ∧ (56 : Byte) ≠ 3 ∧ (56 : Byte) ≠ 4 ∧ (56 : Byte) ≠ 5 ∧
      ∃ x ∈ ([0, 0, 1] : List Byte), x ≠ 0) ∧
    (7 < leNat [8] ∧ 7 < leNat [0, 1]) := by decide

theorem witness_ControlWordHasOneMeaning : decode [5, 7, 0] = .ok (.fhRdw 7) ∧ decode [3] = .ok (.read 0) := by decide

/-- Each of the five stages at a state in which it completes and at one in which it runs short. -/
theorem witness_StageEqualsItsExpansionStepByStep :
    ((cursorState e1 0).start = false ∧ (cursorState e1 14).start = false ∧ (cursorState e1 34).start = false ∧
      (cursorState h1 0).start = false) ∧
    ∀ x ∈ ([(.decEth, 0, 29), (.decIpv4, 14, 23), (.decUdp, 34, 35), (.decEncap, 0, 1)] : List (Instr × Nat × Nat)),
      x.1 ∈ ([.decEth, .decIpv4, .decUdp, .decEncap, .decFhdr] : List Instr) ∧
      x.1.needs (cursorState e1 x.2.1).geom ≤ (cursorState e1 x.2.1).len - (cursorState e1 x.2.1).off ∧
      (cursorState e1 x.2.2).len - (cursorState e1 x.2.2).off < x.1.needs (cursorState e1 x.2.2).geom := by decide

theorem witness_FrameHeaderStageEqualsItsExpansion :
    Instr.decFhdr ∈ ([.decEth, .decIpv4, .decUdp, .decEncap, .decFhdr] : List Instr) ∧
    Instr.decFhdr.needs (cursorState h1 0).geom ≤ (cursorState h1 0).len - (cursorState h1 0).off ∧
    (cursorState h1 1).len - (cursorState h1 1).off < Instr.decFhdr.needs (cursorState h1 1).geom := by decide

theorem witness_PayloadEqualsItsExpansionStepByStep :
    (bufferState p1 ⟨1, 2, 2⟩).start = false ∧ (bufferState p1 ⟨1, 2, 2⟩).coord = ⟨0, 0, 0⟩ := by decide

/-- Enough bytes, and one too few with the cursor inside the buffer. -/
theorem witness_OffsetMovesOnlyByTheRequestedWidth :
    (Instr.fhRdw 2 ≠ .curInit ∧ Instr.fhRdw 2 ≠ .decodeBare ∧ Instr.fhRdw 2 ≠ .decodeEncap) ∧
    (Instr.fhRdw 2).needs (cursorState h1 56).geom ≤ (cursorState h1 56).len - (cursorState h1 56).off ∧
    (cursorState h1 57).off ≤ (cursorState h1 57).len ∧
    (cursorState h1 57).len - (cursorState h1 57).off < (Instr.fhRdw 2).needs (cursorState h1 57).geom := by decide

/-- The cursor at the end of the buffer. -/
theorem witness_OffsetStaysInTheBuffer :
    (cursorState h1 64).off ≤ (cursorState h1 64).len ∧ (∃ t, exec (.read 1) (cursorState h1 64) = .next t) ∧
    (∃ t, step (cursorState h1 64) = .next t) ∧
    ∃ t, Host.Core.run Sys2Proof.core 1 { cursorState h1 64 with seq := [.read 1] } = .next t :=
  ⟨by decide, (by rw [exec_eq_settle]; exact settle_next _), ⟨_, rfl⟩, ⟨_, rfl⟩⟩

/-- A cursor past a shorter buffer presented since, then start and the two steps of the run. -/
theorem witness_OffsetStaysInTheBuffer_from_start :
    ({ cursorState [1] 40 with status := .ok } : State).len < ({ cursorState [1] 40 with status := .ok } : State).off ∧
    ∃ u, ({ cursorState [1] 40 with status := .ok } : State).hostStart = .ok u ∧
      ∃ t, Host.Core.run Sys2Proof.core 2 u = .next t :=
  ⟨by decide, _, rfl, _, rfl⟩

/-- Nothing to run; an operation without request; both. -/
theorem witness_EveryOperationAnswersANextState :
    (cursorState h1 0).seq = [] ∧
    (({ cursorState h1 0 with seq := [.smpIm] } : State).seq ≠ [] ∧
      ({ cursorState h1 0 with seq := [.smpIm] } : State).start = false) ∧
    (({ cursorState h1 0 with start := true, seq := [.smpIm] } : State).seq ≠ [] ∧
      ({ cursorState h1 0 with start := true, seq := [.smpIm] } : State).start = true) := by decide

theorem witness_BufferIsNeverWritten :
    (∃ t, exec .decFhdr (cursorState h1 0) = .next t) ∧ ∃ t, step (cursorState h1 0) = .next t :=
  ⟨(by rw [exec_eq_settle]; exact settle_next _), ⟨_, rfl⟩⟩

theorem witness_OperationsWriteOnlyTheirOwnState :
    (Instr.ethSrc ≠ .decodeBare ∧ Instr.ethSrc ≠ .decodeEncap) ∧
    Instr.ethSrc.needs (cursorState e1 36).geom ≤ (cursorState e1 36).len - (cursorState e1 36).off ∧
    ∃ t, exec .ethSrc (cursorState e1 36) = .next t :=
  ⟨by decide, by decide, (by rw [exec_eq_settle]; exact settle_next _)⟩

/-- The reserved status in a state that no run reaches. -/
theorem witness_ReservedStatusIsNeverProduced :
    (∃ t, exec .curInit { cursorState h1 0 with status := .errMalformed } = .next t ∧ t.status = .errMalformed) ∧
    ∃ t, step { cursorState h1 0 with status := .errMalformed } = .next t ∧ t.status = .errMalformed :=
  ⟨⟨_, rfl, rfl⟩, ⟨_, rfl, rfl⟩⟩

/-- The state right after a start, a run in progress. -/
theorem startedState_inv : okState.beginTransaction.acceptStart.Inv :=
  ⟨okState_inv.1, okState_inv.2.1, by decide, .inr ⟨⟨.bare, rfl⟩, rfl⟩, fun _ => by decide, fun _ => ⟨rfl, rfl⟩, nofun⟩

/-- With DECODE.BARE next and no request, a step answers a next state. -/
theorem step_bare (s : State) (h : s.seq = [.decodeBare]) (hs : s.start = false) : ∃ t, step s = .next t := by
  simp only [step, h, hs, Bool.false_eq_true, if_false]
  rw [exec_eq_settle]
  exact settle_next _

/-- No run in progress, and a run in progress. -/
theorem witness_StepKeepsTheRunInvariant :
    (okState.Inv ∧ ∃ t, step okState = .next t) ∧
    (okState.beginTransaction.acceptStart.Inv ∧ okState.beginTransaction.acceptStart.running = true ∧
      ∃ t, step okState.beginTransaction.acceptStart = .next t) :=
  ⟨⟨okState_inv, ⟨_, rfl⟩⟩, startedState_inv, by decide,
    step_bare _ rfl rfl⟩

theorem witness_HostMovesKeepTheRunInvariant :
    okState.Inv ∧ (∃ t, okState.hostPresent [1, 2] .encap = .ok t) ∧ ∃ t, okState.hostStart = .ok t :=
  ⟨okState_inv, ⟨_, rfl⟩, ⟨_, rfl⟩⟩

/-- The lowest and the highest nibbles. -/
theorem witness_TextsShowTheirValues :
    ((0 : Nat) < 16 ∧ (15 : Nat) < 16) ∧ hex2 (16 * 0 + 15) = ['0', 'f'] ∧ hex2 (16 * 15 + 0) = ['f', '0'] := by decide

end Sys2Proof.Tests
end

/-! ## Sequences of operations

A stage is the sequence of its operations (30_encoding.md R103). What is proved of one operation reaches the stages by
induction on the sequence, and the two commands as sequences of stages. -/

namespace Sys2Proof

/-- The operations that consist of others, and the one that sets the cursor. -/
def Instr.isComposite : Instr → Bool
  | .curInit | .decEth | .decIpv4 | .decUdp | .decEncap | .decFhdr | .decPayload | .decodeBare | .decodeEncap => true
  | _ => false

end Sys2Proof

namespace Sys2Proof.Machine

/-- The operations of a list one after another, up to the first that raises the exception. -/
def runAll : List Instr → State → Attempt
  | [], s => pure s
  | i :: is, s => attemptOf i s >>= runAll is

@[simp] theorem ok_bind (s : State) (f : State → Attempt) : (.ok s : Attempt) >>= f = f s := rfl

theorem runAll_cons (i : Instr) (is : List Instr) (s : State) : runAll (i :: is) s = attemptOf i s >>= runAll is := rfl

@[simp] theorem runAll_singleton (i : Instr) (s : State) : runAll [i] s = attemptOf i s := bind_pure _

theorem runAll_append (is js : List Instr) (s : State) : runAll (is ++ js) s = runAll is s >>= runAll js := by
  induction is generalizing s with
  | nil => rfl
  | cons i is ih =>
    rw [List.cons_append, runAll_cons, runAll_cons, bind_assoc, funext ih]

/-- The five stages of fixed length (R103). -/
def stages : List Instr := [.decEth, .decIpv4, .decUdp, .decEncap, .decFhdr]

/-- A stage runs its expansion (30_encoding.md R103). -/
theorem attemptOf_stage {i : Instr} (h : i ∈ stages) (s : State) : attemptOf i s = runAll i.expansion s := by
  simp only [stages, List.mem_cons, List.not_mem_nil, or_false] at h
  rcases h with rfl | rfl | rfl | rfl | rfl <;>
    simp only [Instr.expansion, runAll_cons, runAll, bind_pure] <;> rfl

/-- The stages that the command of a mode runs (44_packet.md R211, R212). -/
def Mode.body : Mode → List Instr
  | .bare => [.decFhdr, .decPayload]
  | .encap => [.decEncap, .decFhdr, .decPayload]

/-- A command begins the transaction, runs its stages and commits (44_packet.md R210). -/
theorem attemptOf_command (m : Mode) (s : State) :
    attemptOf m.command s = runAll m.body s.beginTransaction >>= fun t => .ok (t.commit m) := by
  have hc : curInit s.beginTransaction = .ok s.beginTransaction := rfl
  cases m
  · simp only [Mode.command, Mode.body, attemptOf, decodeBare, hc, ok_bind, runAll_cons, runAll, bind_pure, bind_assoc]
    rfl
  · simp only [Mode.command, Mode.body, attemptOf, decodeEncap, hc, ok_bind, runAll_cons, runAll, bind_pure, bind_assoc]
    rfl

theorem ok_bind_iff {a : Attempt} {f : State → Attempt} {t : State} :
    a >>= f = .ok t ↔ ∃ u, a = .ok u ∧ f u = .ok t := by
  cases a <;> simp [bind, Except.bind]

end Sys2Proof.Machine

/-! ## What one operation does to the cursor -/

namespace Sys2Proof.Machine

/-- With `n` bytes left the attempt answers `f s`; with fewer it raises the exception in the state it was in. -/
structure Reads (n : Nat) (a : State → Attempt) (f : State → State) : Prop where
  ok : ∀ s, n ≤ s.len - s.off → a s = .ok (f s)
  error : ∀ s, s.len - s.off < n → a s = .error s

theorem Reads.eq_of_ok {n : Nat} {a : State → Attempt} {f : State → State} (h : Reads n a f) {s t : State}
    (e : a s = .ok t) : t = f s := by
  by_cases hn : n ≤ s.len - s.off
  · rw [h.ok s hn] at e; cases e; rfl
  · rw [h.error s (by omega)] at e; cases e

theorem Reads.moves {g : Geometry} {n : Nat} {a : State → Attempt} {f : State → State} (h : Reads n a f)
    (hoff : ∀ s, (f s).off = s.off + n) (hrun : ∀ s : State, s.SameRun (f s)) : Moves g n a :=
  ⟨fun s _ hs => ⟨f s, h.ok s hs, hoff s, hrun s⟩, fun s _ hs => ⟨s, h.error s hs, le_rfl, id, State.SameRun.refl s⟩⟩

/-- The state a successful `FH.RDW k` leaves (41_frame_header.md R131). -/
def State.afterWord (s : State) (k : Fin 8) : State :=
  { s.afterReadBe 8 with w := s.w.set k (some (beBits (8 * 8) (s.mem.bytes s.off 8))) }

/-- The state a successful `SMP.RE` leaves (43_payload.md R201). -/
def State.afterRe (s : State) : State :=
  { s.afterReadBe 2 with
    samples := s.samples.update s.coord fun e => { e with re := some (beBits (8 * 2) (s.mem.bytes s.off 2)) } }

/-- The state a successful `SMP.IM` leaves (43_payload.md R202). -/
def State.afterIm (s : State) : State :=
  { s.afterReadBe 2 with
    samples := s.samples.update s.coord fun e => { e with im := some (beBits (8 * 2) (s.mem.bytes s.off 2)) }
    coord := s.coord.next s.geom }

theorem reads_readN (n : Nat) : Reads n (readN n) (·.afterRead n) :=
  ⟨fun s h => by rw [readN, State.readBytes_ok h]; rfl, fun s h => by rw [readN, State.readBytes_error h]; rfl⟩

theorem reads_rdBe (n : Nat) : Reads n (rdBe n) (·.afterReadBe n) :=
  ⟨fun s h => by rw [rdBe, State.readBe_ok h]; rfl, fun s h => by rw [rdBe, State.readBe_error h]; rfl⟩

theorem reads_fhRdw (k : Fin 8) : Reads 8 (fhRdw k) (·.afterWord k) :=
  ⟨fun s h => by rw [fhRdw, State.readBe_ok h]; rfl, fun s h => by rw [fhRdw, State.readBe_error h]; rfl⟩

theorem reads_smpRe : Reads 2 smpRe State.afterRe :=
  ⟨fun s h => by rw [smpRe, State.readBe_ok h]; rfl, fun s h => by rw [smpRe, State.readBe_error h]; rfl⟩

theorem reads_smpIm : Reads 2 smpIm State.afterIm :=
  ⟨fun s h => by rw [smpIm, State.readBe_ok h]; rfl, fun s h => by rw [smpIm, State.readBe_error h]; rfl⟩

theorem reads_readRun (r : Reg) (n : Nat) : Reads n (fun s => s.readRun r n)
    fun s => (s.afterRead n).putReg r (some (beBits r.width (s.mem.bytes s.off n))) :=
  ⟨fun _ h => State.readRun_ok r h, fun _ h => State.readRun_error r h⟩

theorem reads_readField (r : Reg) (n : Nat) : Reads n (fun s => s.readField r n)
    fun s => (s.afterReadBe n).putReg r (some ((beBits (8 * n) (s.mem.bytes s.off n)).setWidth r.width)) :=
  ⟨fun _ h => State.readField_ok r h, fun _ h => State.readField_error r h⟩

/-- Reads nothing and writes one register: the shape of a field cut from a word or from a latch. -/
theorem Moves.putReg {g : Geometry} (r : Reg) (v : State → Option (BitVec r.width)) :
    Moves g 0 (fun s => .ok (s.putReg r (v s))) :=
  Moves.of_ok fun s => ⟨_, rfl, rfl, State.SameRun.refl s⟩

theorem Moves.runAll {g : Geometry} {is : List Instr} (h : ∀ i ∈ is, Moves g (i.needs g) (attemptOf i)) :
    Moves g (is.map (Instr.needs g)).sum (runAll is) := by
  induction is with
  | nil => exact Moves.of_ok fun s => ⟨s, rfl, rfl, State.SameRun.refl s⟩
  | cons i is ih =>
    rw [List.forall_mem_cons] at h
    exact h.1.bind (ih h.2)

/-- Every operation that makes at most one read of the cursor moves by its width (10_state.md R26, 20_memory.md R56). -/
theorem moves_of_not_composite {g : Geometry} {i : Instr} (h : i.isComposite = false) :
    Moves g (i.needs g) (attemptOf i) := by
  cases i with
  | read n => exact (reads_readN n).moves (fun _ => rfl) State.SameRun.refl
  | rdBe n => exact (reads_rdBe n).moves (fun _ => rfl) State.SameRun.refl
  | fhRdw k => exact (reads_fhRdw k).moves (fun _ => rfl) State.SameRun.refl
  | smpRe => exact reads_smpRe.moves (fun _ => rfl) State.SameRun.refl
  | smpIm => exact reads_smpIm.moves (fun _ => rfl) State.SameRun.refl
  | ethDst | ethSrc | ipSrc | ipDst => exact Moves.readRun _ _
  | ethLen | ipTos | ipTotlen | ipId | ipTtl | ipProto | ipCsum | udpSport | udpDport | udpLen | udpCsum =>
    exact Moves.readField _ _
  | fhW0Invalid | fhW0Complex | fhW0Epoch | fhW0Frame | fhW1Version | fhW1Bps | fhW1Arrlen | fhW1Refep | fhW1Srep
  | fhW1Unassigned | fhW1Station | fhW2Blklen | fhW2Chpt | fhW2Fgroup | fhW2Beam | fhW3Rsvd16 | fhW3Period
  | fhW3Rsvd32 | fhW4Ipp | fhW5Sync | fhW5Rsvd32 | fhW6Edv | fhW6Eud | fhW7Eud | ipVersion | ipIhl | ipFlags
  | ipFrag => exact Moves.putReg _ _
  | curInit | decEth | decIpv4 | decUdp | decEncap | decFhdr | decPayload | decodeBare | decodeEncap =>
    exact nomatch h

/-- A stage moves by what its expansion moves. -/
theorem moves_stage {g : Geometry} {i : Instr} (hi : i ∈ stages)
    (hn : (i.expansion.map (Instr.needs g)).sum = i.needs g)
    (h : ∀ j ∈ i.expansion, Moves g (j.needs g) (attemptOf j)) : Moves g (i.needs g) (attemptOf i) := by
  rw [← hn, show attemptOf i = runAll i.expansion from funext (attemptOf_stage hi)]
  exact Moves.runAll h

/-- The stages whose expansion holds no stage. -/
def flatStages : List Instr := [.decEth, .decIpv4, .decUdp, .decFhdr]

theorem moves_flatStage {g : Geometry} {i : Instr} (h : i ∈ flatStages) : Moves g (i.needs g) (attemptOf i) := by
  simp only [flatStages, List.mem_cons, List.not_mem_nil, or_false] at h
  have leaves : (i.expansion.map (Instr.needs g)).sum = i.needs g ∧ ∀ j ∈ i.expansion, j.isComposite = false := by
    rcases h with rfl | rfl | rfl | rfl <;> exact ⟨by simp [Instr.expansion, Instr.needs], by decide⟩
  have hi : i ∈ stages := by rcases h with rfl | rfl | rfl | rfl <;> decide
  exact moves_stage hi leaves.1 fun j hj => moves_of_not_composite (leaves.2 j hj)

/-- The two reads of a sample, at any coordinate. -/
theorem moves_sampleAt {g : Geometry} (b c p : Nat) : Moves g 4 (sampleAt b c p) := by
  have hset : Moves g 0 fun s => .ok { s with coord := ⟨b, c, p⟩ } :=
    Moves.of_ok fun s => ⟨_, rfl, rfl, State.SameRun.refl s⟩
  have hre : Moves g 2 smpRe := moves_of_not_composite (i := .smpRe) (by decide)
  have him : Moves g 2 smpIm := moves_of_not_composite (i := .smpIm) (by decide)
  exact hset.bind (hre.bind him)

/-- The payload loops over the extents of the geometry: 4 bytes a sample (43_payload.md R200). -/
theorem moves_decPayload {g : Geometry} : Moves g g.payloadBytes decPayload := by
  have loops := Moves.loop (fun b => Moves.loop (fun c => Moves.loop (moves_sampleAt (g := g) b c) g.nPol) g.nCh) g.nBlk
  have hn : g.nBlk * (g.nCh * (g.nPol * 4)) = g.payloadBytes := by
    rw [Geometry.payloadBytes, Config.sampleBytes]; ring
  rw [hn] at loops
  refine ⟨fun s hg h => ?_, fun s hg h => ?_⟩
  · rw [decPayload, hg]; exact loops.ok s hg h
  · rw [decPayload, hg]; exact loops.short s hg h

/-- Every operation at the cursor moves by exactly the bytes it consumes, or raises the exception (10_state.md R26). -/
theorem moves_attemptOf {g : Geometry} {i : Instr} (h1 : i ≠ .curInit) (h2 : i ≠ .decodeBare) (h3 : i ≠ .decodeEncap) :
    Moves g (i.needs g) (attemptOf i) := by
  cases i with
  | curInit => exact absurd rfl h1
  | decodeBare => exact absurd rfl h2
  | decodeEncap => exact absurd rfl h3
  | decPayload => exact moves_decPayload
  | decEth | decIpv4 | decUdp | decFhdr => exact moves_flatStage (by decide)
  | decEncap =>
    exact moves_stage (by decide) rfl fun j hj => moves_flatStage (by revert hj j; decide)
  | _ => exact moves_of_not_composite rfl

/-- The stages of a command consume the bytes its mode needs (20_memory.md R61). -/
theorem moves_body (g : Geometry) (m : Mode) : Moves g (m.neededBytes g) (runAll m.body) := by
  have hn : (m.body.map (Instr.needs g)).sum = m.neededBytes g := by
    cases m <;> simp [Mode.body, Instr.needs, Mode.neededBytes, Mode.headerBase, ← Nat.add_assoc]
  rw [← hn]
  refine Moves.runAll fun i hi => moves_attemptOf ?_ ?_ ?_ <;> (rintro rfl; cases m <;> simp [Mode.body] at hi)

end Sys2Proof.Machine

/-! ## What running an operation and a step can do -/

namespace Sys2Proof.Machine

section
variable {g : Geometry} {n : Nat} {a : State → Attempt} {s t : State}

/-- An attempt of fixed width that went on had its bytes. -/
theorem Moves.of_eq_ok (h : Moves g n a) (hg : s.geom = g) (e : a s = .ok t) :
    n ≤ s.len - s.off ∧ t.off = s.off + n ∧ s.SameRun t := by
  by_cases hn : n ≤ s.len - s.off
  · obtain ⟨u, e', hoff, hrun⟩ := h.ok s hg hn
    rw [e'] at e; cases e
    exact ⟨hn, hoff, hrun⟩
  · obtain ⟨u, e', -⟩ := h.short s hg (by omega)
    rw [e'] at e; cases e

/-- An attempt of fixed width that raised the exception lacked bytes, and left its cursor between where it was and the
end. -/
theorem Moves.of_eq_error (h : Moves g n a) (hg : s.geom = g) (e : a s = .error t) :
    s.len - s.off < n ∧ s.off ≤ t.off ∧ (s.off ≤ s.len → t.off ≤ s.len) ∧ s.SameRun t := by
  by_cases hn : n ≤ s.len - s.off
  · obtain ⟨u, e', -⟩ := h.ok s hg hn
    rw [e'] at e; cases e
  · obtain ⟨u, e', hoff, hlen, hrun⟩ := h.short s hg (by omega)
    rw [e'] at e; cases e
    exact ⟨by omega, hoff, hlen, hrun⟩

end

/-- An operation sets the cursor, is a command, or runs at the cursor. -/
theorem instr_cases (i : Instr) :
    i = .curInit ∨ (∃ m : Mode, i = m.command) ∨ (i ≠ .curInit ∧ i ≠ .decodeBare ∧ i ≠ .decodeEncap) := by
  by_cases h1 : i = .curInit
  · exact .inl h1
  · by_cases h2 : i = .decodeBare
    · exact .inr (.inl ⟨.bare, h2⟩)
    · by_cases h3 : i = .decodeEncap
      · exact .inr (.inl ⟨.encap, h3⟩)
      · exact .inr (.inr ⟨h1, h2, h3⟩)

theorem exec_answers_next (i : Instr) (s : State) : ∃ t, exec i s = .next t := by
  rw [exec_eq_settle]
  exact settle_next _

/-- What an operation at the cursor can do: it moves by its width, or the exception is taken with the cursor between where
it was and the end. -/
theorem exec_atCursor {i : Instr} {s t : State} (h1 : i ≠ .curInit) (h2 : i ≠ .decodeBare) (h3 : i ≠ .decodeEncap)
    (h : exec i s = .next t) :
    (t.off = s.off + i.needs s.geom ∧ i.needs s.geom ≤ s.len - s.off ∧ s.SameRun t) ∨
    (s.len - s.off < i.needs s.geom ∧ s.off ≤ t.off ∧ (s.off ≤ s.len → t.off ≤ s.len) ∧ s.FailedFrom t) := by
  have moves := moves_attemptOf (g := s.geom) h1 h2 h3
  rcases exec_next h with e | ⟨u, e, rfl⟩
  · obtain ⟨hn, hoff, hrun⟩ := moves.of_eq_ok rfl e
    exact .inl ⟨hoff, hn, hrun⟩
  · obtain ⟨hn, hoff, hlen, hin, -, -⟩ := moves.of_eq_error rfl e
    exact .inr ⟨hn, hoff, hlen, rfl, ⟨rfl, rfl⟩, rfl, hin⟩

/-- What a command can do: its stages run from the cursor at 0 and it commits, or the exception is taken. -/
theorem exec_command {m : Mode} {s t : State} (h : exec m.command s = .next t) :
    t.off ≤ t.len ∧ s.SameInputs t ∧
    ((∃ u, runAll m.body s.beginTransaction = .ok u ∧ t = u.commit m ∧ t.seq = s.seq) ∨ s.FailedFrom t) := by
  have moves := moves_body s.geom m
  rcases exec_next h with e | ⟨u, e, rfl⟩
  · rw [attemptOf_command] at e
    obtain ⟨u, e', hc⟩ := ok_bind_iff.mp e
    obtain rfl : u.commit m = t := by cases hc; rfl
    obtain ⟨hn, hoff, hin, -, hseq⟩ := moves.of_eq_ok (s := s.beginTransaction) rfl e'
    have ⟨_, hlen, _⟩ := hin
    simp only [State.beginTransaction_off, State.beginTransaction_len] at hn hoff hlen
    exact ⟨by rw [State.commit_off, State.commit_len]; omega, hin, .inl ⟨u, e', rfl, hseq⟩⟩
  · have e' : runAll m.body s.beginTransaction = .error u := by
      rw [attemptOf_command] at e
      cases hb : runAll m.body s.beginTransaction with
      | ok v => rw [hb] at e; cases e
      | error v => rw [hb] at e; cases e; rfl
    obtain ⟨-, -, hoff, hin, -, -⟩ := moves.of_eq_error (s := s.beginTransaction) rfl e'
    have ⟨_, hlen, _⟩ := hin
    refine ⟨?_, hin, .inr ⟨rfl, ⟨rfl, rfl⟩, rfl, hin⟩⟩
    exact (hoff (Nat.zero_le _)).trans_eq hlen.symm

/-- What a step can do: wait, accept the start request, or run the next operation. -/
theorem step_cases {s t : State} (h : step s = .next t) :
    (s.seq = [] ∧ t = s) ∨ (s.seq = [] ∧ t = s.acceptStart) ∨
    ∃ i rest, s.seq = i :: rest ∧ s.start = false ∧ exec i { s with seq := rest } = .next t := by
  unfold step at h
  split at h
  case h_1 hseq =>
    split at h
    · cases h; exact .inr (.inl ⟨hseq, rfl⟩)
    · cases h; exact .inl ⟨hseq, rfl⟩
  case h_2 i rest hseq =>
    split at h
    · cases h
    · rename_i hstart
      exact .inr (.inr ⟨i, rest, hseq, by simpa using hstart, h⟩)

/-- What every step keeps, every run keeps. -/
theorem run_keeps {P : State → Prop} (hstep : ∀ s t, P s → step s = .next t → P t) {n : Nat} {s t : State} (hs : P s)
    (h : Host.Core.run Sys2Proof.core n s = .next t) : P t := by
  induction n generalizing s with
  | zero => rw [run_zero] at h; cases h; exact hs
  | succ n ih =>
    cases e : step s with
    | next u => rw [run_succ n e] at h; exact ih (hstep s u hs e) h
    | fault r | refused r =>
      have e' : Sys2Proof.core.step s = _ := e
      simp [Host.Core.run, e'] at h

/-- The host starts a run exactly while none is in progress, and then it begins at `OFF = 0` (44_packet.md R215). -/
theorem hostStart_eq_ok {s t : State} :
    s.hostStart = .ok t ↔ s.seq = [] ∧ s.start = false ∧ t = { s.beginTransaction with start := true } := by
  cases hs : s.start <;> cases hq : s.seq <;> simp [State.hostStart, State.running, hs, hq, eq_comm]

/-- The host presents a packet exactly while no run is in progress (10_state.md R39). -/
theorem hostPresent_eq_ok {s t : State} {p : List Byte} {m : Mode} :
    s.hostPresent p m = .ok t ↔
      s.seq = [] ∧ s.start = false ∧ t = { s with mem := Memory.putAll [] 0 p, len := p.length, mode := m } := by
  cases hs : s.start <;> cases hq : s.seq <;> simp [State.hostPresent, State.running, hs, hq, eq_comm]

theorem exec_off_le {i : Instr} {s t : State} (hs : s.off ≤ s.len) (h : exec i s = .next t) : t.off ≤ t.len := by
  rcases instr_cases i with rfl | ⟨m, rfl⟩ | ⟨h1, h2, h3⟩
  · obtain rfl : { s with off := 0 } = t := by cases h; rfl
    exact Nat.zero_le _
  · exact (exec_command h).1
  · rcases exec_atCursor h1 h2 h3 h with ⟨hoff, hn, ⟨-, hlen, -⟩, -⟩ | ⟨-, -, hoff, -, -, -, -, hlen, -⟩
    · omega
    · rw [hlen]; exact hoff hs

theorem step_off_le {s t : State} (hs : s.off ≤ s.len) (h : step s = .next t) : t.off ≤ t.len := by
  rcases step_cases h with ⟨-, rfl⟩ | ⟨-, rfl⟩ | ⟨i, rest, -, -, he⟩
  · exact hs
  · exact Nat.zero_le _
  · exact exec_off_le (s := { s with seq := rest }) hs he

/-- Settles O52: an invariant of `exec`, hence of `step` and of runs; a start establishes it. -/
theorem offsetStaysInTheBuffer : Obligations.OffsetStaysInTheBuffer := by
  have runs {n : Nat} {s t : State} (hs : s.off ≤ s.len) (h : Host.Core.run Sys2Proof.core n s = .next t) :
      t.off ≤ t.len := run_keeps (fun _ _ => step_off_le) hs h
  refine ⟨fun s t i hs h => ⟨exec_off_le hs h, ?_⟩, fun s t => step_off_le, fun s t n => runs, fun s u h => ?_⟩
  · rcases instr_cases i with rfl | ⟨m, rfl⟩ | ⟨h1, h2, h3⟩
    · exact .inl rfl
    · cases m <;> simp [Mode.command]
    · rcases exec_atCursor h1 h2 h3 h with ⟨hoff, -⟩ | ⟨-, hoff, -⟩
      · exact .inr (.inr (.inr (by omega)))
      · exact .inr (.inr (.inr hoff))
  · obtain ⟨-, -, rfl⟩ := hostStart_eq_ok.mp h
    exact ⟨rfl, fun n t => runs (Nat.zero_le _)⟩

/-- Settles O51, from `Moves`: the two cases are the two cases of `exec_atCursor`. -/
theorem offsetMovesOnlyByTheRequestedWidth : Obligations.OffsetMovesOnlyByTheRequestedWidth := by
  intro s i h1 h2 h3
  obtain ⟨t, e⟩ := exec_answers_next i s
  refine ⟨fun hn => ⟨t, e, ?_⟩, fun hs hn => ⟨t, e, ?_⟩⟩
  · rcases exec_atCursor h1 h2 h3 e with ⟨hoff, -, -, hstatus, -⟩ | ⟨hshort, -⟩
    · exact ⟨hoff, hstatus⟩
    · omega
  · rcases exec_atCursor h1 h2 h3 e with ⟨-, hlong, -⟩ | ⟨-, hoff, hlen, hstatus, -⟩
    · omega
    · exact ⟨hoff, hlen hs, hstatus⟩

end Sys2Proof.Machine

/-! ## The host's moves and its view -/

namespace Sys2Proof.Machine

theorem State.running_eq_false {s : State} : s.running = false ↔ s.seq = [] ∧ s.start = false := by
  simp [State.running, and_comm]

/-- Putting a byte lists no address but its own. -/
theorem Memory.mem_put {m : Memory} {a : Nat} {b : Byte} {c : Host.Cell} (h : c ∈ m.put a b) : c ∈ m ∨ c.1 = a := by
  induction m with
  | nil =>
    unfold Memory.put at h
    split at h
    · exact absurd h List.not_mem_nil
    · exact .inr (by rw [List.mem_singleton.mp h])
  | cons e rest ih =>
    obtain ⟨k, d⟩ := e
    unfold Memory.put at h
    split_ifs at h
    · exact .inl h
    · exact (List.mem_cons.mp h).symm.imp_right fun e => by rw [e]
    · exact .inl (List.mem_cons_of_mem _ h)
    · exact (List.mem_cons.mp h).symm.imp (List.mem_cons_of_mem _) fun e => by rw [e]
    · rcases List.mem_cons.mp h with e | hr
      · exact .inl (List.mem_cons.mpr (.inl e))
      · exact (ih hr).imp_left (List.mem_cons_of_mem _)

/-- Putting bytes lists no address past the last of them. -/
theorem Memory.mem_putAll {m : Memory} {a : Nat} {bs : List Byte} {c : Host.Cell} (h : c ∈ m.putAll a bs) :
    c ∈ m ∨ c.1 < a + bs.length := by
  induction bs generalizing m a with
  | nil => exact .inl h
  | cons b bs ih =>
    rw [List.length_cons]
    rcases ih h with hp | hlt
    · rcases Memory.mem_put hp with hm | he
      · exact .inl hm
      · exact .inr (by omega)
    · exact .inr (by omega)

/-- Settles O40: the buffer of a packet is what `Memory.putAll` leaves of the empty one. -/
theorem hostPresentsThePacketBytes : Obligations.HostPresentsThePacketBytes := by
  intro s p m
  refine ⟨fun hseq hstart => ⟨_, hostPresent_eq_ok.mpr ⟨hseq, hstart, rfl⟩, fun a => ?_, rfl, rfl, rfl, rfl, rfl, rfl, rfl,
    hseq, hstart, rfl⟩, fun h => ?_⟩
  · simp only [State.byteAt, Memory.get_putAll (m := []) 0 p a rfl, Nat.zero_le, if_true, Nat.sub_zero]
    by_cases ha : a < p.length <;> simp [ha]
  · have hrun : s.running = true := by
      rw [← Bool.not_eq_false, State.running_eq_false]
      rintro ⟨hseq, hstart⟩
      rcases h with h | h
      · exact h hseq
      · rw [hstart] at h; cases h
    rw [State.hostPresent, if_pos hrun]

theorem State.word_reset (k : Fin 8) : State.reset.word k = none := by
  simp [State.word, State.reset]

/-- Settles O1. -/
theorem resetLeavesNoOutcome : Obligations.ResetLeavesNoOutcome := by
  have noSample {g : Geometry} (b c p : Nat) (e : Sample) (h : (SampleArray.absent g).at b c p = some e) :
      e = ⟨none, none⟩ := by
    rw [SampleArray.at_absent] at h
    split at h <;> cases h
    rfl
  exact ⟨⟨rfl, rfl, RegFile.get_absent, State.word_reset, noSample, rfl, rfl⟩,
    fun s => ⟨rfl, rfl, RegFile.get_absent, State.word_reset, noSample, rfl, rfl, rfl, rfl, rfl⟩⟩

theorem State.wordField_eq_none {s : State} {k : Fin 8} (h : s.word k = none) (hi lo : Nat) :
    s.wordField k hi lo = none := by
  rw [State.wordField, h]; rfl

/-- An operation that only writes a field without value answers the state in which its register has none. -/
theorem exec_eq_putReg_none {i : Instr} {s : State} {r : Reg} {v : Option (BitVec r.width)}
    (h : attemptOf i s = .ok (s.putReg r v)) (hv : v = none) : exec i s = .next (s.putReg r none) := by
  rw [exec_eq_settle, h, hv, settle_ok]

/-- Settles O14: a field of a word without value is a field without value. -/
theorem fieldOfUnreadWordHasNoValue : Obligations.FieldOfUnreadWordHasNoValue := by
  intro s
  refine ⟨fun h => ?_, fun h => ?_, fun h => ?_, fun h => ?_, fun h => ?_, fun h => ?_, fun h => ?_, fun h => ?_⟩
  all_goals
    have none_of (hi lo : Nat) := State.wordField_eq_none h hi lo
    repeat' apply And.intro
    all_goals exact exec_eq_putReg_none rfl (none_of _ _)

theorem hostRead_eq_ok {s : State} {r : Reg} {v : BitVec r.width} :
    s.hostRead r = .ok v ↔ s.status = .ok ∧ s.f.get r = some v := by
  unfold State.hostRead
  split
  · cases h : s.f.get r <;> simp [*]
  · simp [*]

/-- A read of a register answers its value or faults with "no value". -/
theorem hostRead_cases (s : State) (r : Reg) : (∃ v, s.hostRead r = .ok v) ∨ s.hostRead r = .error .noValue := by
  unfold State.hostRead
  split
  · cases s.f.get r with
    | some v => exact .inl ⟨v, rfl⟩
    | none => exact .inr rfl
  · exact .inr rfl

@[simp] theorem Sample.pair_eq_some {e : Sample} {re im : Component} :
    e.pair = some (re, im) ↔ e = ⟨some re, some im⟩ := by
  obtain ⟨re', im'⟩ := e
  cases re' <;> cases im' <;> simp [Sample.pair]

theorem Sample.pair_eq_none {e : Sample} (h : e.re = none ∨ e.im = none) : e.pair = none := by
  obtain ⟨re, im⟩ := e
  rcases h with rfl | rfl
  · rfl
  · cases re <;> rfl

theorem hostSample_of_status_ne {s : State} (h : s.status ≠ .ok) (b c p : Nat) :
    s.hostSample b c p = .error .noValue := if_neg h

theorem hostSample_of_no_element {s : State} {b c p : Nat} (h : s.status = .ok) (he : s.samples.at b c p = none) :
    s.hostSample b c p = .error .noSuchSample := by
  rw [State.hostSample, if_pos h, he]

theorem hostSample_of_no_pair {s : State} {b c p : Nat} {e : Sample} (h : s.status = .ok)
    (he : s.samples.at b c p = some e) (hp : e.pair = none) : s.hostSample b c p = .error .noValue := by
  rw [State.hostSample, if_pos h, he]; simp only [hp]

theorem hostSample_of_pair {s : State} {b c p : Nat} {e : Sample} {v : Component × Component} (h : s.status = .ok)
    (he : s.samples.at b c p = some e) (hp : e.pair = some v) : s.hostSample b c p = .ok v := by
  rw [State.hostSample, if_pos h, he]; simp only [hp]

theorem hostSample_eq_ok {s : State} {b c p : Nat} {re im : Component} :
    s.hostSample b c p = .ok (re, im) ↔ s.status = .ok ∧ s.samples.at b c p = some ⟨some re, some im⟩ := by
  refine ⟨fun h => ?_, fun ⟨hs, he⟩ => hostSample_of_pair hs he rfl⟩
  by_cases hs : s.status = .ok
  · cases he : s.samples.at b c p with
    | none => rw [hostSample_of_no_element hs he] at h; cases h
    | some e =>
      cases hp : e.pair with
      | none => rw [hostSample_of_no_pair hs he hp] at h; cases h
      | some v =>
        rw [hostSample_of_pair hs he hp] at h; cases h
        exact ⟨hs, by rw [Sample.pair_eq_some.mp hp]⟩
  · rw [hostSample_of_status_ne hs] at h; cases h

/-- Settles O38, one lemma per case of the two host reads. -/
theorem hostReadsResultsOnlyWhileOk : Obligations.HostReadsResultsOnlyWhileOk :=
  ⟨fun s r => ⟨fun _ => hostRead_eq_ok, fun hne => (hostRead_cases s r).resolve_left fun ⟨v, hv⟩ => hne v hv⟩,
   fun _ b c p => ⟨fun _ _ => hostSample_eq_ok, fun hs => hostSample_of_status_ne hs b c p, hostSample_of_no_element,
     fun _ hs he hpart => hostSample_of_no_pair hs he (Sample.pair_eq_none hpart)⟩,
   fun _ hs => if_neg hs⟩

end Sys2Proof.Machine

/-! ## The run invariant -/

namespace Sys2Proof.Machine

/-- With no run in progress the invariant asks nothing of the cursor. -/
theorem inv_of_not_running {s : State} (hwf : s.mem.wf = true) (hmem : ∀ c ∈ s.mem, c.1 < s.len)
    (hrun : s.running = false) (hmal : s.status ≠ .errMalformed) (hres : s.status ≠ .ok → s.NoResults)
    (hok : s.status = .ok → s.Complete) : s.Inv :=
  ⟨hwf, hmem, hmal, .inl (State.running_eq_false.mp hrun).1, fun h => absurd h (by simp [hrun]), hres, hok⟩

/-- Settles O56. -/
theorem resetMeetsTheRunInvariant : Obligations.ResetMeetsTheRunInvariant :=
  inv_of_not_running rfl nofun rfl nofun (fun _ => ⟨rfl, rfl⟩) nofun

theorem hostPresent_inv {s t : State} {p : List Byte} {m : Mode} (h : s.Inv) (e : s.hostPresent p m = .ok t) : t.Inv := by
  obtain ⟨hseq, hstart, rfl⟩ := hostPresent_eq_ok.mp e
  obtain ⟨-, -, hmal, -, -, hres, hok⟩ := h
  refine inv_of_not_running (Memory.putAll_wf 0 p rfl) (fun c hc => ?_) (State.running_eq_false.mpr ⟨hseq, hstart⟩) hmal hres
    hok
  rcases Memory.mem_putAll hc with hnil | hlt
  · exact absurd hnil List.not_mem_nil
  · simpa using hlt

theorem hostStart_inv {s t : State} (h : s.Inv) (e : s.hostStart = .ok t) : t.Inv := by
  obtain ⟨hseq, -, rfl⟩ := hostStart_eq_ok.mp e
  obtain ⟨hwf, hmem, -⟩ := h
  exact ⟨hwf, hmem, nofun, .inl hseq, fun _ => Nat.zero_le _, fun _ => ⟨rfl, rfl⟩, nofun⟩

theorem hostReset_inv {s : State} (h : s.Inv) : s.hostReset.Inv := by
  obtain ⟨hwf, hmem, -⟩ := h
  exact inv_of_not_running hwf hmem rfl nofun (fun _ => ⟨rfl, rfl⟩) nofun

/-- Settles O58: a packet is presented in canonical form, a start begins at `OFF = 0`, a reset leaves no result. -/
theorem hostMovesKeepTheRunInvariant : Obligations.HostMovesKeepTheRunInvariant :=
  fun _ _ h => ⟨fun _ _ => hostPresent_inv h, hostStart_inv h, hostReset_inv h⟩

end Sys2Proof.Machine

/-! ## Which registers hold a value after a sequence of operations

A register holds a value exactly if an operation that writes it has run or it held one before, as long as every field is
cut from a word or a latch that holds one. `P` and `Q` say which of those hold a value before and after. -/

namespace Sys2Proof.Machine

/-- From `P`, the operations `is` lead to `Q`, give a value to exactly the registers they write, and leave the samples. -/
def Fills (P : State → Prop) (is : List Instr) (Q : State → Prop) : Prop :=
  ∀ s t, P s → runAll is s = .ok t →
    Q t ∧ t.samples = s.samples ∧ ∀ q, (t.f.get q).isSome = (is.any (Instr.writes q) || (s.f.get q).isSome)

/-- No operand is asked for. -/
def NoOperand (_ : State) : Prop := True

/-- The first `n` words of the frame header hold values. -/
def WordsBelow (n : Nat) (s : State) : Prop := ∀ k : Fin 8, k.val < n → (s.word k).isSome = true

/-- The last `RD_BE` returned a value of `n` bytes: `B` for 1, `G` for 2 (42_encapsulation.md R175). -/
def Latched (n : Nat) (s : State) : Prop := ∃ v, s.rdbe = some ⟨n, v⟩

section
variable {P Q R : State → Prop} {is js : List Instr} {i : Instr}

theorem Fills.nil : Fills P [] P := by
  intro s t hp h
  cases h
  exact ⟨hp, rfl, fun q => by simp⟩

theorem Fills.append (hi : Fills P is Q) (hj : Fills Q js R) : Fills P (is ++ js) R := by
  intro s t hp h
  rw [runAll_append] at h
  obtain ⟨u, hu, ht⟩ := ok_bind_iff.mp h
  obtain ⟨hq, hsu, hfu⟩ := hi s u hp hu
  obtain ⟨hr, hst, hft⟩ := hj u t hq ht
  exact ⟨hr, hst.trans hsu, fun q => by rw [hft, hfu, List.any_append, Bool.or_left_comm, Bool.or_assoc]⟩

theorem Fills.cons (hi : Fills P [i] Q) (hj : Fills Q js R) : Fills P (i :: js) R := hi.append hj

theorem Fills.weaken (h : Fills P is Q) : Fills P is NoOperand := by
  intro s t hp e
  exact ⟨trivial, (h s t hp e).2⟩

/-- A sequence whose operations all keep `P` keeps it. -/
theorem Fills.of_forall (h : ∀ i ∈ is, Fills P [i] P) : Fills P is P := by
  induction is with
  | nil => exact Fills.nil
  | cons i is ih =>
    rw [List.forall_mem_cons] at h
    exact h.1.cons (ih h.2)

/-- A stage fills what its expansion fills, if that is what the stage is listed to write. -/
theorem Fills.stage (hi : i ∈ stages) (hw : ∀ q, i.expansion.any (Instr.writes q) = i.writes q)
    (h : Fills P i.expansion Q) : Fills P [i] Q := by
  intro s t hp e
  rw [runAll_singleton, attemptOf_stage hi] at e
  simpa [hw] using h s t hp e

/-- A read that touches no result. -/
theorem Fills.of_reads {n : Nat} {f : State → State} (h : Reads n (attemptOf i) f) (hw : ∀ q, i.writes q = false)
    (hQ : ∀ s, P s → Q (f s)) (hf : ∀ s : State, (f s).f = s.f) (hsmp : ∀ s : State, (f s).samples = s.samples) :
    Fills P [i] Q := by
  intro s t hp e
  rw [runAll_singleton] at e
  obtain rfl := h.eq_of_ok e
  exact ⟨hQ s hp, hsmp s, fun q => by simp [hf, hw]⟩

/-- The values in the registers after one more is written. -/
theorem isSome_get_put (f : RegFile) (r q : Reg) (v : BitVec r.width) :
    ((f.put r (some v)).get q).isSome = (q == r || (f.get q).isSome) := by
  by_cases h : q = r
  · subst h; simp
  · rw [RegFile.get_put_of_ne f _ h, beq_false_of_ne h, Bool.false_or]

/-- An operation that writes a value into one register, whatever else it does to the cursor and its latches. -/
theorem Fills.of_put {r : Reg} (hw : ∀ q, i.writes q = (q == r))
    (h : ∀ s t, P s → attemptOf i s = .ok t → Q t ∧ t.samples = s.samples ∧ ∃ v, t.f = s.f.put r (some v)) :
    Fills P [i] Q := by
  intro s t hp e
  rw [runAll_singleton] at e
  obtain ⟨hq, hsmp, v, hf⟩ := h s t hp e
  exact ⟨hq, hsmp, fun q => by simp [hf, isSome_get_put, hw]⟩

theorem Fills.readRun {r : Reg} {n : Nat} (ha : attemptOf i = fun s => s.readRun r n)
    (hw : ∀ q, i.writes q = (q == r)) : Fills NoOperand [i] NoOperand :=
  Fills.of_put hw fun s t _ e => by
    rw [ha] at e
    obtain rfl := (reads_readRun r n).eq_of_ok e
    exact ⟨trivial, rfl, _, rfl⟩

theorem Fills.readField {r : Reg} {n : Nat} (ha : attemptOf i = fun s => s.readField r n)
    (hw : ∀ q, i.writes q = (q == r)) : Fills NoOperand [i] NoOperand :=
  Fills.of_put hw fun s t _ e => by
    rw [ha] at e
    obtain rfl := (reads_readField r n).eq_of_ok e
    exact ⟨trivial, rfl, _, rfl⟩

/-- A field cut from something that holds a value. -/
theorem Fills.cut {r : Reg} {v : State → Option (BitVec r.width)} (ha : attemptOf i = fun s => .ok (s.putReg r (v s)))
    (hw : ∀ q, i.writes q = (q == r)) (hv : ∀ s, P s → (v s).isSome = true)
    (hkeep : ∀ s, P s → P (s.putReg r (v s))) : Fills P [i] P :=
  Fills.of_put hw fun s t hp e => by
    rw [ha] at e
    obtain rfl : s.putReg r (v s) = t := by cases e; rfl
    obtain ⟨x, hx⟩ := Option.isSome_iff_exists.mp (hv s hp)
    exact ⟨hkeep s hp, rfl, x, by rw [State.putReg_f, hx]⟩

end

/-! ### The encapsulation stages -/

theorem fills_rdBe (n : Nat) : Fills NoOperand [.rdBe n] (Latched n) :=
  Fills.of_reads (reads_rdBe n) (fun _ => rfl) (fun _ _ => ⟨_, rfl⟩) (fun _ => rfl) fun _ => rfl

theorem fills_cut_of_B {i : Instr} (h : i = .ipVersion ∨ i = .ipIhl) : Fills (Latched 1) [i] (Latched 1) := by
  have hB (s : State) (hs : Latched 1 s) : s.operandB.isSome = true := by
    obtain ⟨v, hv⟩ := hs
    rw [State.operandB, hv]; rfl
  rcases h with rfl | rfl <;>
    exact Fills.cut rfl (fun _ => rfl) (fun s hs => Option.isSome_map.trans (hB s hs)) fun _ => id

theorem fills_cut_of_G {i : Instr} (h : i = .ipFlags ∨ i = .ipFrag) : Fills (Latched 2) [i] (Latched 2) := by
  have hG (s : State) (hs : Latched 2 s) : s.operandG.isSome = true := by
    obtain ⟨v, hv⟩ := hs
    rw [State.operandG, hv]; rfl
  rcases h with rfl | rfl <;>
    exact Fills.cut rfl (fun _ => rfl) (fun s hs => Option.isSome_map.trans (hG s hs)) fun _ => id

/-- The operations that read an encapsulation field from the cursor. -/
def encapReads : List Instr :=
  [.ethDst, .ethSrc, .ethLen, .ipTos, .ipTotlen, .ipId, .ipTtl, .ipProto, .ipCsum, .ipSrc, .ipDst, .udpSport, .udpDport,
    .udpLen, .udpCsum]

theorem fills_encapRead {i : Instr} (h : i ∈ encapReads) : Fills NoOperand [i] NoOperand := by
  cases i with
  | ethDst | ethSrc | ipSrc | ipDst => exact Fills.readRun rfl fun _ => rfl
  | ethLen | ipTos | ipTotlen | ipId | ipTtl | ipProto | ipCsum | udpSport | udpDport | udpLen | udpCsum =>
    exact Fills.readField rfl fun _ => rfl
  | _ => simp [encapReads] at h

theorem fills_encapReads {is : List Instr} (h : ∀ i ∈ is, i ∈ encapReads) : Fills NoOperand is NoOperand :=
  Fills.of_forall fun i hi => fills_encapRead (h i hi)

theorem fills_decEth : Fills NoOperand [.decEth] NoOperand :=
  Fills.stage (by decide) (fun q => by cases q <;> rfl) (fills_encapReads (by decide))

theorem fills_decUdp : Fills NoOperand [.decUdp] NoOperand :=
  Fills.stage (by decide) (fun q => by cases q <;> rfl) (fills_encapReads (by decide))

/-- `B` is read right before the two fields cut from it, and `G` before its two (42_encapsulation.md R175). -/
theorem fills_decIpv4 : Fills NoOperand [.decIpv4] NoOperand := by
  have first : Fills NoOperand [.rdBe 1, .ipVersion, .ipIhl] NoOperand :=
    ((fills_rdBe 1).cons ((fills_cut_of_B (.inl rfl)).cons (fills_cut_of_B (.inr rfl)))).weaken
  have second : Fills NoOperand [.rdBe 2, .ipFlags, .ipFrag] NoOperand :=
    ((fills_rdBe 2).cons ((fills_cut_of_G (.inl rfl)).cons (fills_cut_of_G (.inr rfl)))).weaken
  have between : Fills NoOperand [.ipTos, .ipTotlen, .ipId] NoOperand := fills_encapReads (by decide)
  have last : Fills NoOperand [.ipTtl, .ipProto, .ipCsum, .ipSrc, .ipDst] NoOperand := fills_encapReads (by decide)
  exact Fills.stage (by decide) (fun q => by cases q <;> rfl) (first.append (between.append (second.append last)))

theorem fills_decEncap : Fills NoOperand [.decEncap] NoOperand :=
  Fills.stage (by decide) (fun q => by cases q <;> rfl) (fills_decEth.cons (fills_decIpv4.cons fills_decUdp))

/-! ### The frame header -/

theorem State.word_afterWord (s : State) (k j : Fin 8) :
    (s.afterWord k).word j =
      if k.val = j.val then some (beBits (8 * 8) (s.mem.bytes s.off 8)) else s.word j := by
  simp [State.word, State.afterWord, Vector.getElem_set, State.afterReadBe, State.afterRead]

theorem fills_fhRdw (k : Fin 8) : Fills (WordsBelow k) [.fhRdw k] (WordsBelow (k + 1)) := by
  refine Fills.of_reads (reads_fhRdw k) (fun _ => rfl) (fun s hs j hj => ?_) (fun _ => rfl) fun _ => rfl
  rw [State.word_afterWord]
  split
  · rfl
  · exact hs j (by omega)

/-- The field operations of the frame header (41_frame_header.md R132 to R155). -/
def frameCuts : List Instr :=
  [.fhW0Invalid, .fhW0Complex, .fhW0Epoch, .fhW0Frame, .fhW1Version, .fhW1Bps, .fhW1Arrlen, .fhW1Refep, .fhW1Srep,
    .fhW1Unassigned, .fhW1Station, .fhW2Blklen, .fhW2Chpt, .fhW2Fgroup, .fhW2Beam, .fhW3Rsvd16, .fhW3Period, .fhW3Rsvd32,
    .fhW4Ipp, .fhW5Sync, .fhW5Rsvd32, .fhW6Edv, .fhW6Eud, .fhW7Eud]

theorem fills_frameCut {i : Instr} (h : i ∈ frameCuts) : Fills (WordsBelow 8) [i] (WordsBelow 8) := by
  have field (k : Fin 8) (hi lo : Nat) (s : State) (hs : WordsBelow 8 s) : (s.wordField k hi lo).isSome = true := by
    rw [State.wordField, Option.isSome_map]
    exact hs k k.isLt
  cases i with
  | fhW0Invalid | fhW0Complex | fhW0Epoch | fhW0Frame | fhW1Version | fhW1Bps | fhW1Arrlen | fhW1Refep | fhW1Srep
  | fhW1Unassigned | fhW1Station | fhW2Blklen | fhW2Chpt | fhW2Fgroup | fhW2Beam | fhW3Rsvd16 | fhW3Period
  | fhW3Rsvd32 | fhW4Ipp | fhW5Sync | fhW5Rsvd32 | fhW6Edv | fhW6Eud | fhW7Eud =>
    exact Fills.cut rfl (fun _ => rfl) (field _ _ _) fun _ => id
  | _ => simp [frameCuts] at h

/-- The eight words are read first, then every field is cut from them (41_frame_header.md R130). -/
theorem fills_decFhdr : Fills NoOperand [.decFhdr] NoOperand := by
  have start : Fills NoOperand [] (WordsBelow 0) := by
    intro s t _ e
    cases e
    exact ⟨fun k hk => absurd hk (Nat.not_lt_zero _), rfl, fun q => by simp⟩
  have words : Fills (WordsBelow 0) [.fhRdw 0, .fhRdw 1, .fhRdw 2, .fhRdw 3, .fhRdw 4, .fhRdw 5, .fhRdw 6, .fhRdw 7]
      (WordsBelow 8) :=
    (fills_fhRdw 0).cons <| (fills_fhRdw 1).cons <| (fills_fhRdw 2).cons <| (fills_fhRdw 3).cons <|
      (fills_fhRdw 4).cons <| (fills_fhRdw 5).cons <| (fills_fhRdw 6).cons <| fills_fhRdw 7
  have fields : Fills (WordsBelow 8) frameCuts (WordsBelow 8) := Fills.of_forall fun _ => fills_frameCut
  exact Fills.stage (by decide) (fun q => by cases q <;> rfl) (start.append (words.append fields)).weaken

/-- The stages of a mode before its payload. -/
def Mode.headers : Mode → List Instr
  | .bare => [.decFhdr]
  | .encap => [.decEncap, .decFhdr]

theorem Mode.body_eq (m : Mode) : m.body = m.headers ++ [.decPayload] := by cases m <;> rfl

theorem fills_headers (m : Mode) : Fills NoOperand m.headers NoOperand := by
  cases m with
  | bare => exact fills_decFhdr
  | encap => exact fills_decEncap.cons fills_decFhdr

end Sys2Proof.Machine

/-! ## Which samples hold a value after the payload -/

namespace Sys2Proof.Machine

/-- The coordinate is an element of the extents (10_state.md R34). -/
def Geometry.Holds (g : Geometry) (x : Nat × Nat × Nat) : Prop := x.1 < g.nBlk ∧ x.2.1 < g.nCh ∧ x.2.2 < g.nPol

/-- The array has the elements of `g`, those at the coordinates `D` hold both parts, and the registers are `f`. -/
structure Delivered (g : Geometry) (f : RegFile) (D : Set (Nat × Nat × Nat)) (s : State) : Prop where
  elements : ∀ b c p, (s.samples.at b c p).isSome = true ↔ g.Holds (b, c, p)
  pairs : ∀ b c p e, (b, c, p) ∈ D → s.samples.at b c p = some e → ∃ v, e.pair = some v
  regs : s.f = f

/-- The attempt delivers the samples at the coordinates `E`, and loses none. -/
def Delivers (E : Set (Nat × Nat × Nat)) (a : State → Attempt) : Prop :=
  ∀ g f D s t, Delivered g f D s → a s = .ok t → Delivered g f (D ∪ E) t

/-- A loop delivers what its iterations deliver. -/
theorem Delivers.loop {E : Nat → Set (Nat × Nat × Nat)} {body : Nat → State → Attempt} (h : ∀ i, Delivers (E i) (body i))
    (n : Nat) : Delivers {x | ∃ i < n, x ∈ E i} (forUpto n body) := by
  intro g f D s t hs e
  induction n generalizing t with
  | zero =>
    obtain rfl : s = t := by cases e; rfl
    simpa using hs
  | succ n ih =>
    rw [forUpto_succ] at e
    obtain ⟨u, hu, ht⟩ := ok_bind_iff.mp e
    have hD : D ∪ {x | ∃ i < n + 1, x ∈ E i} = D ∪ {x | ∃ i < n, x ∈ E i} ∪ E n := by
      ext x; simp only [Set.mem_union, Set.mem_ofPred_eq, Nat.exists_lt_succ_right, or_assoc]
    rw [hD]
    exact h n g f _ u t (ih u hu) ht

/-- The state that the two reads of a sample leave. -/
theorem sampleAt_eq_ok {b c p : Nat} {s t : State} (h : sampleAt b c p s = .ok t) :
    t = { s with coord := ⟨b, c, p⟩ }.afterRe.afterIm := by
  obtain ⟨u, hu, ht⟩ := ok_bind_iff.mp h
  rw [reads_smpIm.eq_of_ok ht, reads_smpRe.eq_of_ok hu]

/-- One sample is delivered (43_payload.md R200): the other elements are as before. -/
theorem delivers_sampleAt (b c p : Nat) : Delivers {(b, c, p)} (sampleAt b c p) := by
  intro g f D s t hs e
  obtain rfl := sampleAt_eq_ok e
  obtain ⟨re, im, hsmp⟩ : ∃ re im, ({ s with coord := ⟨b, c, p⟩ } : State).afterRe.afterIm.samples =
      (s.samples.update ⟨b, c, p⟩ fun e => { e with re := some re }).update ⟨b, c, p⟩ fun e => { e with im := some im } :=
    ⟨_, _, rfl⟩
  refine ⟨fun b' c' p' => ?_, fun b' c' p' e' hx he => ?_, hs.regs⟩
  · rw [← hs.elements b' c' p', hsmp, SampleArray.at_update, SampleArray.at_update]
    split <;> simp
  · rw [hsmp, SampleArray.at_update, SampleArray.at_update] at he
    split at he
    · simp only [Option.map_map, Option.map_eq_some_iff] at he
      obtain ⟨e₀, -, rfl⟩ := he
      exact ⟨(re, im), rfl⟩
    · rename_i hne
      exact hs.pairs b' c' p' e' (hx.resolve_right hne) he

/-- The payload delivers every element of the extents (43_payload.md R200). -/
theorem decPayload_delivered {g : Geometry} {f : RegFile} {s t : State} (hs : Delivered g f ∅ s) (hg : s.geom = g)
    (h : decPayload s = .ok t) : Delivered g f {x | g.Holds x} t := by
  have loops := Delivers.loop (fun b => Delivers.loop (fun c => Delivers.loop (delivers_sampleAt b c) g.nPol) g.nCh) g.nBlk
  rw [decPayload, hg] at h
  obtain ⟨elements, pairs, regs⟩ := loops g f ∅ s t hs h
  refine ⟨elements, fun b c p e hx => pairs b c p e (.inr ?_), regs⟩
  obtain ⟨hb, hc, hp⟩ := hx
  exact ⟨b, hb, c, hc, p, hp, rfl⟩

/-- The array without values is that of its geometry (10_state.md R38). -/
theorem delivered_of_absent {s : State} (h : s.samples = SampleArray.absent s.geom) : Delivered s.geom s.f ∅ s := by
  refine ⟨fun b c p => ?_, fun b c p e hx => absurd hx (Set.notMem_empty _), rfl⟩
  rw [h, SampleArray.at_absent, Geometry.Holds]
  split <;> simp [*]

end Sys2Proof.Machine

/-! ## A transaction that commits leaves a complete result -/

namespace Sys2Proof.Machine

/-- Which registers the headers of a mode write: those of the frame header, and in ENCAP mode those of the
encapsulation (44_packet.md R211, R212). -/
theorem headers_any_writes (m : Mode) (r : Reg) :
    m.headers.any (Instr.writes r) = (r.isFrame || (decide (m = .encap) && r.isEncap)) := by
  cases m <;> cases r <;> rfl

/-- No register belongs to both kinds of header (10_state.md R29 to R32). -/
theorem Reg.isFrame_of_isEncap {r : Reg} (h : r.isEncap = true) : r.isFrame = false := by
  revert h; cases r <;> simp [Reg.isEncap, Reg.isFrame]

theorem moves_headers (g : Geometry) (m : Mode) : ∃ n, Moves g n (runAll m.headers) :=
  ⟨_, Moves.runAll fun i hi => by
    apply moves_attemptOf <;> (rintro rfl; cases m <;> simp [Mode.headers] at hi)⟩

/-- The stages of a command, run from a begun transaction, leave every value the mode has (10_state.md R28). -/
theorem body_complete {m : Mode} {s t : State} (h : runAll m.body s.beginTransaction = .ok t) :
    (t.commit m).Complete := by
  rw [Mode.body_eq, runAll_append] at h
  obtain ⟨u, hu, ht⟩ := ok_bind_iff.mp h
  rw [runAll_singleton] at ht
  obtain ⟨-, hsmp, hf⟩ := fills_headers m s.beginTransaction u trivial hu
  obtain ⟨n, moves⟩ := moves_headers s.geom m
  obtain ⟨-, -, ⟨-, -, -, hgu, -⟩, -⟩ := moves.of_eq_ok (s := s.beginTransaction) rfl hu
  obtain ⟨-, -, ⟨-, -, -, hgt, -⟩, -⟩ := moves_decPayload.of_eq_ok rfl ht
  have hg : t.geom = u.geom := hgt
  have filled : Delivered u.geom u.f {x | u.geom.Holds x} t :=
    decPayload_delivered (delivered_of_absent (by rw [hsmp, hgu]; rfl)) rfl ht
  have regs (r : Reg) (hr : r ≠ .encapV) :
      ((t.commit m).f.get r).isSome = (r.isFrame || (decide (m = .encap) && r.isEncap)) := by
    rw [State.commit_f, RegFile.get_put_of_ne _ _ hr, filled.regs, hf, headers_any_writes]
    simp
  refine ⟨m, by simp, fun r hr => ?_, fun r hr => ?_, fun b c p hx => ?_, fun b c p hx => ?_⟩
  · rw [regs r (by rintro rfl; cases hr), hr, Bool.true_or]
  · rw [regs r (by rintro rfl; cases hr), Reg.isFrame_of_isEncap hr, hr, Bool.and_true, Bool.false_or]
  · rw [State.commit_geom, hg] at hx
    obtain ⟨e, he⟩ := Option.isSome_iff_exists.mp ((filled.elements b c p).mpr hx)
    obtain ⟨v, hv⟩ := filled.pairs b c p e hx he
    exact ⟨v, by rw [State.commit_samples, he]; exact hv⟩
  · rw [State.commit_geom, hg] at hx
    rw [State.commit_samples, ← Option.not_isSome_iff_eq_none, filled.elements]
    exact hx

/-! ## Every step keeps the run invariant -/

theorem acceptStart_inv {s : State} (h : s.Inv) : s.acceptStart.Inv := by
  obtain ⟨hwf, hmem, -⟩ := h
  exact ⟨hwf, hmem, nofun, .inr ⟨⟨s.mode, rfl⟩, rfl⟩, fun _ => Nat.zero_le _, fun _ => ⟨rfl, rfl⟩, nofun⟩

/-- A command that is the last operation of its run ends it: with a complete result, or with none. -/
theorem exec_command_inv {m : Mode} {s t : State} (hwf : s.mem.wf = true) (hmem : ∀ c ∈ s.mem, c.1 < s.len)
    (hseq : s.seq = []) (hstart : s.start = false) (h : exec m.command s = .next t) : t.Inv := by
  obtain ⟨-, ⟨hm, hl, -, -, hst⟩, hcase⟩ := exec_command h
  have hwf' : t.mem.wf = true := hm ▸ hwf
  have hmem' : ∀ c ∈ t.mem, c.1 < t.len := by rw [hm, hl]; exact hmem
  rcases hcase with ⟨u, hu, rfl, hq⟩ | ⟨hs, hres, hq, -⟩
  · exact inv_of_not_running hwf' hmem' (State.running_eq_false.mpr ⟨hq.trans hseq, hst.trans hstart⟩) nofun
      (fun hne => absurd rfl hne) fun _ => body_complete hu
  · exact inv_of_not_running hwf' hmem' (State.running_eq_false.mpr ⟨hq, hst.trans hstart⟩) (by rw [hs]; nofun)
      (fun _ => hres) (by rw [hs]; nofun)

/-- Settles O57: a step waits, accepts a start, or runs the one command that the invariant allows. -/
theorem stepKeepsTheRunInvariant : Obligations.StepKeepsTheRunInvariant := by
  intro s t h e
  rcases step_cases e with ⟨-, rfl⟩ | ⟨-, rfl⟩ | ⟨i, rest, hseq, hstart, he⟩
  · exact h
  · exact acceptStart_inv h
  · obtain ⟨hwf, hmem, -, hone, -⟩ := h
    obtain ⟨rfl, m, rfl⟩ : rest = [] ∧ ∃ m : Mode, i = m.command := by
      rcases hone with hnil | ⟨⟨m, hm⟩, -⟩
      · rw [hnil] at hseq; cases hseq
      · rw [hm] at hseq; cases hseq; exact ⟨rfl, m, rfl⟩
    exact exec_command_inv (s := { s with seq := [] }) hwf hmem rfl hstart he

end Sys2Proof.Machine

/-! ## The buffer's bytes as numbers (20_memory.md R52, R53) -/

namespace Sys2Proof.Machine

/-- Settles O6, by induction on the count: the first byte is the most significant. -/
theorem bigEndianValueIsWeightedSum : Obligations.BigEndianValueIsWeightedSum := by
  intro m a n
  induction n generalizing a with
  | zero => rfl
  | succ n ih =>
    have weights (i : Nat) : (m.get (a + 1 + i)).toNat * 256 ^ (n - 1 - i) =
        (m.get (a + (i + 1))).toNat * 256 ^ (n + 1 - 1 - (i + 1)) := by
      rw [show a + 1 + i = a + (i + 1) by omega, show n - 1 - i = n + 1 - 1 - (i + 1) by omega]
    rw [Memory.bytes, be_cons, Memory.length_bytes, ih, Finset.sum_range_succ', add_comm]
    simp only [weights, Nat.add_zero, Nat.add_sub_cancel, Nat.sub_zero]

/-- A byte of a container is eight bits of the container's value. -/
theorem toNat_get_eq_slice (m : Memory) (a : Nat) {n i : Nat} (h : i < n) :
    (m.get (a + i)).toNat = be (m.bytes a n) / 2 ^ (8 * (n - 1 - i)) % 2 ^ 8 := by
  have slice := be_bytes_slice m a (show i + 1 ≤ n from h)
  rw [Memory.bytes, Memory.bytes, be_cons, be_nil, List.length_nil, Nat.sub_right_comm] at slice
  rw [pow_mul]
  simpa using slice

theorem testBit_be_bytes (m : Memory) (a : Nat) {n i j : Nat} (hi : i < n) (hj : j < 8) :
    (be (m.bytes a n)).testBit (8 * (n - 1 - i) + j) = (m.get (a + i)).getLsbD j := by
  rw [← BitVec.testBit_toNat, toNat_get_eq_slice m a hi, Nat.testBit_mod_two_pow, Nat.testBit_div_two_pow,
    decide_eq_true hj, Bool.true_and, Nat.add_comm j]

/-- Settles O7: a byte is a slice of its container; bit `b` of a word is bit `b % 8` of its byte `7 - b / 8`. -/
theorem bitOfByteIsBitOfContainer : Obligations.BitOfByteIsBitOfContainer := by
  refine ⟨fun m a n i j hi hj => testBit_be_bytes m a hi hj, fun m base k b _ hb => ?_⟩
  have bit := testBit_be_bytes m (base + 8 * k) (show 7 - b / 8 < 8 by omega) (Nat.mod_lt b (by omega))
  rwa [show 8 * (8 - 1 - (7 - b / 8)) + b % 8 = b by omega,
    show base + 8 * k + (7 - b / 8) = base + (8 * k + 7 - b / 8) by omega] at bit

/-- Reads that find the same byte at each place deliver the same bytes. -/
theorem Memory.bytes_congr {m m' : Memory} {a a' n : Nat} (h : ∀ i, i < n → m'.get (a' + i) = m.get (a + i)) :
    m'.bytes a' n = m.bytes a n := by
  refine List.ext_getElem? fun i => ?_
  by_cases hi : i < n
  · rw [Memory.getElem?_bytes _ _ _ _ hi, Memory.getElem?_bytes _ _ _ _ hi, h i hi]
  · rw [List.getElem?_eq_none (by simpa using hi), List.getElem?_eq_none (by simpa using hi)]

end Sys2Proof.Machine

/-! ## What no operation writes, and what a step runs (20_memory.md R66, R67) -/

namespace Sys2Proof.Machine

/-- The host's inputs stand through every operation, whether it goes on or takes the exception. -/
theorem exec_sameInputs {i : Instr} {s t : State} (h : exec i s = .next t) : s.SameInputs t := by
  rcases instr_cases i with rfl | ⟨m, rfl⟩ | ⟨h1, h2, h3⟩
  · obtain rfl : { s with off := 0 } = t := by cases h; rfl
    exact ⟨rfl, rfl, rfl, rfl, rfl⟩
  · exact (exec_command h).2.1
  · rcases exec_atCursor h1 h2 h3 h with ⟨-, -, hin, -⟩ | ⟨-, -, -, -, -, -, hin⟩ <;> exact hin

theorem State.SameInputs.buffer {s t : State} (h : s.SameInputs t) :
    (∀ a, t.byteAt a = s.byteAt a) ∧ t.mem = s.mem ∧ t.len = s.len ∧ t.mode = s.mode ∧ t.geom = s.geom := by
  obtain ⟨hmem, hlen, hmode, hgeom, -⟩ := h
  exact ⟨fun a => by rw [State.byteAt, State.byteAt, hmem, hlen], hmem, hlen, hmode, hgeom⟩

/-- Settles O53: a step waits, accepts a start, or runs an operation, and none of them writes an input. -/
theorem bufferIsNeverWritten : Obligations.BufferIsNeverWritten := by
  refine ⟨fun s t i h => (exec_sameInputs h).buffer, fun s t h => ?_⟩
  rcases step_cases h with ⟨-, rfl⟩ | ⟨-, rfl⟩ | ⟨i, rest, -, -, he⟩
  · exact ⟨fun _ => rfl, rfl, rfl, rfl, rfl⟩
  · exact ⟨fun _ => rfl, rfl, rfl, rfl, rfl⟩
  · exact (exec_sameInputs he).buffer

/-- With no start request a step runs the first operation of the sequence on the rest of it. -/
theorem step_of_seq_cons {s : State} {i : Instr} {rest : List Instr} (h : s.seq = i :: rest) (hs : s.start = false) :
    step s = exec i { s with seq := rest } := by
  simp [step, h, hs]

/-- Settles O42: `withFetchWord` leaves the decoded operation alone in the sequence, and no start request. -/
theorem stepRunsTheDecodedOperation : Obligations.StepRunsTheDecodedOperation := by
  refine ⟨fun s i rest => step_of_seq_cons, fun s nbits w i h => ?_⟩
  exact step_of_seq_cons (by rw [State.withFetchWord_seq, h]; rfl) rfl

end Sys2Proof.Machine

/-! ## When a command succeeds (20_memory.md R61) -/

namespace Sys2Proof.Machine

/-- With the mode's total in the buffer the stages of a command go on, past exactly those bytes, and it commits. -/
theorem exec_command_of_le {m : Mode} {s : State} (h : m.neededBytes s.geom ≤ s.len) :
    ∃ u, runAll m.body s.beginTransaction = .ok u ∧ exec m.command s = .next (u.commit m) := by
  obtain ⟨u, hu, -⟩ := (moves_body s.geom m).ok s.beginTransaction rfl h
  exact ⟨u, hu, by rw [exec_eq_settle, attemptOf_command, hu]; rfl⟩

/-- With fewer bytes it takes the exception. -/
theorem exec_command_of_lt {m : Mode} {s : State} (h : s.len < m.neededBytes s.geom) :
    ∃ t, exec m.command s = .next t ∧ s.FailedFrom t := by
  obtain ⟨u, hu, -, -, hin, -, -⟩ := (moves_body s.geom m).short s.beginTransaction rfl h
  exact ⟨u.takeTruncated, by rw [exec_eq_settle, attemptOf_command, hu]; rfl, rfl, ⟨rfl, rfl⟩, rfl, hin⟩

/-- The outcome of a command is decided by the length of the buffer alone. -/
theorem exec_command_status (m : Mode) (s : State) : ∃ t, exec m.command s = .next t ∧
    (t.status = .ok ↔ m.neededBytes s.geom ≤ s.len) ∧ (t.status ≠ .ok → s.FailedFrom t) := by
  by_cases h : m.neededBytes s.geom ≤ s.len
  · obtain ⟨u, -, e⟩ := exec_command_of_le h
    exact ⟨u.commit m, e, iff_of_true rfl h, fun hne => absurd rfl hne⟩
  · obtain ⟨t, e, failed⟩ := exec_command_of_lt (Nat.lt_of_not_le h)
    have ⟨truncated, _⟩ := failed
    exact ⟨t, e, iff_of_false (by rw [truncated]; nofun) h, fun _ => failed⟩

/-- Settles O28: the mode's total, written out, is 64 or 106 bytes and 4 for each sample. -/
theorem transactionSucceedsExactlyWhenLongEnough : Obligations.TransactionSucceedsExactlyWhenLongEnough := by
  intro s m
  cases m with
  | bare => exact exec_command_status .bare s
  | encap => exact exec_command_status .encap s

end Sys2Proof.Machine

/-! ## What an operation sees of the buffer

An operation at the cursor sees the bytes it consumes and nothing else of the buffer: neither the bytes around them, nor
where they stand, nor how many follow (20_memory.md R51, R62). -/

namespace Sys2Proof.Machine

/-- The results and temporaries of `s` over the buffer, the cursor, and the run of `u`. -/
def State.onto (s u : State) : State :=
  { s with mem := u.mem, len := u.len, mode := u.mode, off := u.off, start := u.start, seq := u.seq }

/-- The cursor moved past `n` bytes. -/
def State.advance (u : State) (n : Nat) : State := { u with off := u.off + n }

@[simp] theorem State.onto_geom (s u : State) : (s.onto u).geom = s.geom := rfl
@[simp] theorem State.advance_zero (u : State) : u.advance 0 = u := rfl

theorem State.advance_advance (u : State) (n k : Nat) : (u.advance n).advance k = u.advance (n + k) := by
  rw [State.advance, State.advance, State.advance, ← Nat.add_assoc]

/-- An attempt that consumes exactly `n` bytes and answers the same over any buffer with those bytes at the cursor. -/
structure SeesOnly (g : Geometry) (n : Nat) (a : State → Attempt) : Prop extends Moves g n a where
  /-- What it answered over one buffer it answers over the other. -/
  sees : ∀ s u t, s.geom = g → n ≤ u.len - u.off → u.mem.bytes u.off n = s.mem.bytes s.off n → a s = .ok t →
    a (s.onto u) = .ok (t.onto (u.advance n))

section
variable {g : Geometry} {n k : Nat} {a b : State → Attempt}

/-- An attempt that reads nothing, and is the same over every buffer. -/
theorem SeesOnly.of_ok {f : State → State} (hoff : ∀ s, (f s).off = s.off) (hrun : ∀ s : State, s.SameRun (f s))
    (hf : ∀ s u : State, f (s.onto u) = (f s).onto u) : SeesOnly g 0 fun s => .ok (f s) where
  toMoves := Moves.of_ok fun s => ⟨f s, rfl, hoff s, hrun s⟩
  sees s u t _ _ _ e := by cases e; rw [hf, State.advance_zero]

/-- One attempt after another: the bytes of the second follow those of the first. -/
theorem SeesOnly.bind (ha : SeesOnly g n a) (hb : SeesOnly g k b) : SeesOnly g (n + k) fun s => a s >>= b where
  toMoves := ha.toMoves.bind hb.toMoves
  sees s u t hg hlen hbytes e := by
    obtain ⟨v, hv, ht⟩ := ok_bind_iff.mp e
    obtain ⟨-, hoff, ⟨hmem, -, -, hgv, -⟩, -⟩ := ha.of_eq_ok hg hv
    rw [Memory.bytes_add, Memory.bytes_add] at hbytes
    obtain ⟨first, second⟩ := List.append_inj hbytes (by simp)
    have first_ok := ha.sees s u v hg (by omega) first hv
    have second_ok := hb.sees v (u.advance n) t (hgv.trans hg) (show k ≤ u.len - (u.off + n) by omega)
      (by rw [hmem, hoff]; exact second) ht
    rw [first_ok, ok_bind, second_ok, State.advance_advance]

/-- A loop of attempts. -/
theorem SeesOnly.loop {body : Nat → State → Attempt} (h : ∀ i, SeesOnly g n (body i)) (k : Nat) :
    SeesOnly g (k * n) (forUpto k body) := by
  induction k with
  | zero =>
    rw [Nat.zero_mul]
    exact SeesOnly.of_ok (f := id) (fun _ => rfl) State.SameRun.refl fun _ _ => rfl
  | succ k ih =>
    rw [Nat.succ_mul, show forUpto (k + 1) body = fun s => forUpto k body s >>= body k from
      funext fun s => forUpto_succ k body s]
    exact ih.bind (h k)

/-- A sequence of operations. -/
theorem SeesOnly.runAll {is : List Instr} (h : ∀ i ∈ is, SeesOnly g (i.needs g) (attemptOf i)) :
    SeesOnly g (is.map (Instr.needs g)).sum (runAll is) := by
  induction is with
  | nil => exact SeesOnly.of_ok (f := id) (fun _ => rfl) State.SameRun.refl fun _ _ => rfl
  | cons i is ih =>
    rw [List.forall_mem_cons] at h
    exact h.1.bind (ih h.2)

/-- A read whose answer is made from its bytes. -/
theorem Reads.seesOnly {f : State → State} (h : Reads n a f) (hoff : ∀ s, (f s).off = s.off + n)
    (hrun : ∀ s : State, s.SameRun (f s))
    (hf : ∀ s u : State, u.mem.bytes u.off n = s.mem.bytes s.off n → f (s.onto u) = (f s).onto (u.advance n)) :
    SeesOnly g n a where
  toMoves := h.moves hoff hrun
  sees s u t _ hlen hbytes e := by rw [h.eq_of_ok e, ← hf s u hbytes]; exact h.ok _ hlen

end

section
variable {n : Nat} {s u : State} (h : u.mem.bytes u.off n = s.mem.bytes s.off n)
include h

theorem State.bytes_onto : (s.onto u).mem.bytes (s.onto u).off n = s.mem.bytes s.off n := h

theorem State.afterRead_onto : (s.onto u).afterRead n = (s.afterRead n).onto (u.advance n) := by
  simp [State.afterRead, State.onto, State.advance, h]

theorem State.afterReadBe_onto : (s.onto u).afterReadBe n = (s.afterReadBe n).onto (u.advance n) := by
  simp [State.afterReadBe, State.afterRead, State.beAt, State.onto, State.advance, h]

end

theorem seesOnly_readN (g : Geometry) (n : Nat) : SeesOnly g n (readN n) :=
  (reads_readN n).seesOnly (fun _ => rfl) State.SameRun.refl fun _ _ => State.afterRead_onto

theorem seesOnly_rdBe (g : Geometry) (n : Nat) : SeesOnly g n (rdBe n) :=
  (reads_rdBe n).seesOnly (fun _ => rfl) State.SameRun.refl fun _ _ => State.afterReadBe_onto

theorem seesOnly_fhRdw (g : Geometry) (k : Fin 8) : SeesOnly g 8 (fhRdw k) :=
  (reads_fhRdw k).seesOnly (fun _ => rfl) State.SameRun.refl fun _ _ h => by
    rw [State.afterWord, State.afterReadBe_onto h, State.bytes_onto h]; rfl

theorem seesOnly_smpRe (g : Geometry) : SeesOnly g 2 smpRe :=
  reads_smpRe.seesOnly (fun _ => rfl) State.SameRun.refl fun _ _ h => by
    rw [State.afterRe, State.afterReadBe_onto h, State.bytes_onto h]; rfl

theorem seesOnly_smpIm (g : Geometry) : SeesOnly g 2 smpIm :=
  reads_smpIm.seesOnly (fun _ => rfl) State.SameRun.refl fun _ _ h => by
    rw [State.afterIm, State.afterReadBe_onto h, State.bytes_onto h]; rfl

theorem seesOnly_readRun (g : Geometry) (r : Reg) (n : Nat) : SeesOnly g n fun s => s.readRun r n :=
  (reads_readRun r n).seesOnly (fun _ => rfl) State.SameRun.refl fun _ _ h => by
    rw [State.afterRead_onto h, State.bytes_onto h]; rfl

theorem seesOnly_readField (g : Geometry) (r : Reg) (n : Nat) : SeesOnly g n fun s => s.readField r n :=
  (reads_readField r n).seesOnly (fun _ => rfl) State.SameRun.refl fun _ _ h => by
    rw [State.afterReadBe_onto h, State.bytes_onto h]; rfl

/-- A field cut from a word or from a latch: the buffer has no part in it. -/
theorem seesOnly_putReg {g : Geometry} {r : Reg} {v : State → Option (BitVec r.width)}
    (hv : ∀ s u : State, v (s.onto u) = v s) : SeesOnly g 0 fun s => .ok (s.putReg r (v s)) :=
  SeesOnly.of_ok (fun _ => rfl) State.SameRun.refl fun s u => by rw [hv]; rfl

theorem seesOnly_of_not_composite {g : Geometry} {i : Instr} (h : i.isComposite = false) :
    SeesOnly g (i.needs g) (attemptOf i) := by
  cases i with
  | read n => exact seesOnly_readN g n
  | rdBe n => exact seesOnly_rdBe g n
  | fhRdw k => exact seesOnly_fhRdw g k
  | smpRe => exact seesOnly_smpRe g
  | smpIm => exact seesOnly_smpIm g
  | ethDst | ethSrc | ipSrc | ipDst => exact seesOnly_readRun g _ _
  | ethLen | ipTos | ipTotlen | ipId | ipTtl | ipProto | ipCsum | udpSport | udpDport | udpLen | udpCsum =>
    exact seesOnly_readField g _ _
  | fhW0Invalid | fhW0Complex | fhW0Epoch | fhW0Frame | fhW1Version | fhW1Bps | fhW1Arrlen | fhW1Refep | fhW1Srep
  | fhW1Unassigned | fhW1Station | fhW2Blklen | fhW2Chpt | fhW2Fgroup | fhW2Beam | fhW3Rsvd16 | fhW3Period
  | fhW3Rsvd32 | fhW4Ipp | fhW5Sync | fhW5Rsvd32 | fhW6Edv | fhW6Eud | fhW7Eud | ipVersion | ipIhl | ipFlags
  | ipFrag => exact seesOnly_putReg fun _ _ => rfl
  | curInit | decEth | decIpv4 | decUdp | decEncap | decFhdr | decPayload | decodeBare | decodeEncap =>
    exact nomatch h

/-- A stage sees what its expansion sees (30_encoding.md R103). -/
theorem seesOnly_stage {g : Geometry} {i : Instr} (hi : i ∈ stages)
    (hn : (i.expansion.map (Instr.needs g)).sum = i.needs g)
    (h : ∀ j ∈ i.expansion, SeesOnly g (j.needs g) (attemptOf j)) : SeesOnly g (i.needs g) (attemptOf i) := by
  rw [← hn, show attemptOf i = runAll i.expansion from funext (attemptOf_stage hi)]
  exact SeesOnly.runAll h

theorem seesOnly_flatStage {g : Geometry} {i : Instr} (h : i ∈ flatStages) : SeesOnly g (i.needs g) (attemptOf i) := by
  simp only [flatStages, List.mem_cons, List.not_mem_nil, or_false] at h
  rcases h with rfl | rfl | rfl | rfl <;>
    exact seesOnly_stage (by decide) (by simp [Instr.expansion, Instr.needs]) fun j hj =>
      seesOnly_of_not_composite (by revert hj j; decide)

theorem seesOnly_sampleAt (g : Geometry) (b c p : Nat) : SeesOnly g 4 (sampleAt b c p) := by
  have hset : SeesOnly g 0 fun s => .ok { s with coord := ⟨b, c, p⟩ } :=
    SeesOnly.of_ok (fun _ => rfl) State.SameRun.refl fun _ _ => rfl
  exact hset.bind ((seesOnly_smpRe g).bind (seesOnly_smpIm g))

/-- The payload is three loops of samples (43_payload.md R200). -/
theorem seesOnly_decPayload (g : Geometry) : SeesOnly g g.payloadBytes decPayload where
  toMoves := moves_decPayload
  sees s u t hg hlen hbytes e := by
    have loops := SeesOnly.loop (fun b => SeesOnly.loop (fun c => SeesOnly.loop (seesOnly_sampleAt g b c) g.nPol) g.nCh)
      g.nBlk
    have hn : g.nBlk * (g.nCh * (g.nPol * 4)) = g.payloadBytes := by
      rw [Geometry.payloadBytes, Config.sampleBytes]; ring
    rw [hn] at loops
    rw [decPayload, hg] at e
    rw [decPayload, State.onto_geom, hg]
    exact loops.sees s u t hg hlen hbytes e

/-- Every operation at the cursor sees of the buffer only the bytes it consumes. -/
theorem seesOnly_attemptOf {g : Geometry} {i : Instr} (h1 : i ≠ .curInit) (h2 : i ≠ .decodeBare) (h3 : i ≠ .decodeEncap) :
    SeesOnly g (i.needs g) (attemptOf i) := by
  cases i with
  | curInit => exact absurd rfl h1
  | decodeBare => exact absurd rfl h2
  | decodeEncap => exact absurd rfl h3
  | decPayload => exact seesOnly_decPayload g
  | decEth | decIpv4 | decUdp | decFhdr => exact seesOnly_flatStage (by decide)
  | decEncap => exact seesOnly_stage (by decide) rfl fun j hj => seesOnly_flatStage (by revert hj j; decide)
  | _ => exact seesOnly_of_not_composite rfl

/-- The stages of a command see the mode's total, from the first byte on (20_memory.md R61). -/
theorem seesOnly_body (g : Geometry) (m : Mode) : SeesOnly g (m.neededBytes g) (runAll m.body) := by
  have hn : (m.body.map (Instr.needs g)).sum = m.neededBytes g := by
    cases m <;> simp [Mode.body, Instr.needs, Mode.neededBytes, Mode.headerBase, ← Nat.add_assoc]
  rw [← hn]
  refine SeesOnly.runAll fun i hi => seesOnly_attemptOf ?_ ?_ ?_ <;> (rintro rfl; cases m <;> simp [Mode.body] at hi)

/-- Settles O30: the two transactions begin alike but for the buffer, and their stages see the same bytes of it. -/
theorem surplusBytesAreIgnored : Obligations.SurplusBytesAreIgnored := by
  intro s u t v m hg hs hu hbytes ht hv
  obtain ⟨s', bodyS, execS⟩ := exec_command_of_le hs
  obtain rfl : s'.commit m = t := by rw [execS] at ht; cases ht; rfl
  have begun : u.beginTransaction = s.beginTransaction.onto u.beginTransaction := by
    simp [State.beginTransaction, State.onto, hg]
  have same : u.mem.bytes 0 (m.neededBytes s.geom) = s.mem.bytes 0 (m.neededBytes s.geom) :=
    Memory.bytes_congr fun i hi => hbytes (0 + i) (by omega)
  have bodyU := (seesOnly_body s.geom m).sees s.beginTransaction u.beginTransaction s' rfl hu same bodyS
  rw [← begun] at bodyU
  obtain ⟨u', bodyU', execU⟩ := exec_command_of_le (hg ▸ hu)
  obtain rfl : u'.commit m = v := by rw [execU] at hv; cases hv; rfl
  obtain rfl : s'.onto (u.beginTransaction.advance (m.neededBytes s.geom)) = u' := by
    rw [bodyU] at bodyU'; cases bodyU'; rfl
  obtain ⟨-, hoff, -⟩ := (moves_body s.geom m).of_eq_ok (s := s.beginTransaction) rfl bodyS
  exact ⟨rfl, rfl, rfl, hoff.symm⟩

end Sys2Proof.Machine

/-! ## Control words

An operation and the number in its operand bytes determine each other (30_encoding.md R102; log 1): `decode` looks at nothing
else of a word, so that what it drops of one is its zero bytes at the end. -/

namespace Sys2Proof

/-! ### Bytes as digits in base 256 -/

theorem leNat_replicate_zero (k : Nat) : leNat (List.replicate k 0) = 0 := by
  induction k with
  | zero => rfl
  | succ k ih => rw [List.replicate_succ, leNat, ih]; rfl

theorem leNat_append_zeros (bs : List Byte) (k : Nat) : leNat (bs ++ List.replicate k 0) = leNat bs := by
  induction bs with
  | nil => exact leNat_replicate_zero k
  | cons b bs ih => rw [List.cons_append, leNat, leNat, ih]

theorem leNat_leBytes (k n : Nat) : leNat (leBytes k n) = n % 256 ^ k := by
  induction k generalizing n with
  | zero => rw [leBytes, leNat, pow_zero, Nat.mod_one]
  | succ k ih => rw [leBytes, leNat, ih, BitVec.toNat_ofNat, Nat.pow_succ' (m := 256), Nat.mod_mul]

theorem leBytes_leNat (bs : List Byte) : leBytes bs.length (leNat bs) = bs := by
  induction bs with
  | nil => rfl
  | cons b bs ih =>
    have hb := b.isLt
    have head : BitVec.ofNat 8 (b.toNat + 256 * leNat bs) = b := BitVec.eq_of_toNat_eq (by simpa using hb)
    have tail : (b.toNat + 256 * leNat bs) / 256 = leNat bs := by omega
    rw [List.length_cons, leNat, leBytes, head, tail, ih]

/-- Words of one length with one value are equal. -/
theorem leNat_inj {xs ys : List Byte} (hlen : xs.length = ys.length) (h : leNat xs = leNat ys) : xs = ys := by
  rw [← leBytes_leNat xs, ← leBytes_leNat ys, hlen, h]

/-- Words with one value differ in zero bytes at the end only. -/
theorem append_zeros_eq_of_leNat_eq {xs ys : List Byte} (h : leNat xs = leNat ys) :
    xs ++ List.replicate (ys.length - xs.length) 0 = ys ++ List.replicate (xs.length - ys.length) 0 := by
  refine leNat_inj ?_ (by rw [leNat_append_zeros, leNat_append_zeros, h])
  simp only [List.length_append, List.length_replicate]
  omega

theorem leNat_ne_zero {bs : List Byte} (h : ∃ x ∈ bs, x ≠ 0) : leNat bs ≠ 0 := by
  intro hz
  have zeros : bs = List.replicate bs.length 0 := leNat_inj (by simp) (by rw [hz, leNat_replicate_zero])
  obtain ⟨x, hx, hne⟩ := h
  rw [zeros] at hx
  exact hne (List.eq_of_mem_replicate hx)

/-- The operand bytes are enough for the operand. -/
theorem leNat_operandBytes (n : Nat) : leNat (operandBytes n) = n := by
  by_cases h : n = 0
  · subst h; rfl
  · have enough : n < 256 ^ (n.log2 / 8 + 1) :=
      calc n < 2 ^ (n.log2 + 1) := Nat.lt_log2_self
        _ ≤ 2 ^ (8 * (n.log2 / 8 + 1)) := Nat.pow_le_pow_right (by decide) (by omega)
        _ = 256 ^ (n.log2 / 8 + 1) := Nat.pow_mul ..
    rw [operandBytes, if_neg h, leNat_leBytes, Nat.mod_eq_of_lt enough]

/-! ### The decoder, case by case -/

/-- The three operation bytes that take an operand are those of no operation without one. -/
theorem plainOperation_operand {op : Byte} (h : op = 3 ∨ op = 4 ∨ op = 5) : plainOperation op.toNat = none := by
  rcases h with rfl | rfl | rfl <;> rfl

theorem plainOperation_of_gt {n : Nat} (h : 56 < n) : plainOperation n = none := by
  obtain ⟨k, rfl⟩ := Nat.exists_eq_add_of_le' h
  rfl

theorem plainOperation_isSome {op : Byte} (h : op.toNat ≤ 56) (h3 : op ≠ 3) (h4 : op ≠ 4) (h5 : op ≠ 5) :
    (plainOperation op.toNat).isSome = true := by
  have all : ∀ n < 57, n ≠ 3 → n ≠ 4 → n ≠ 5 → (plainOperation n).isSome = true := by decide
  have ne {k : Byte} (hk : op ≠ k) : op.toNat ≠ k.toNat := fun e => hk (BitVec.eq_of_toNat_eq e)
  exact all op.toNat (by omega) (ne h3) (ne h4) (ne h5)

/-- The numbering of the operations without operand, both ways (30_encoding.md R102). -/
theorem plainOperation_eq_some {n : Nat} {i : Instr} (h : plainOperation n = some i) :
    n = (operationByte i).toNat ∧ operandOf i = 0 := by
  unfold plainOperation at h
  split at h <;> cases h <;> exact ⟨rfl, rfl⟩

theorem decode_read (bs : List Byte) : decode (3 :: bs) = .ok (.read (leNat bs)) := rfl

theorem decode_rdBe (bs : List Byte) : decode (4 :: bs) = .ok (.rdBe (leNat bs)) := rfl

theorem decode_fhRdw {bs : List Byte} (h : leNat bs < 8) : decode (5 :: bs) = .ok (.fhRdw ⟨leNat bs, h⟩) := dif_pos h

theorem decode_fhRdw_of_ge {bs : List Byte} (h : 8 ≤ leNat bs) : decode (5 :: bs) = .error .noSuchWord :=
  dif_neg (Nat.not_lt.mpr h)

theorem decode_plain {op : Byte} {i : Instr} (h : plainOperation op.toNat = some i) (bs : List Byte) :
    decode (op :: bs) = if leNat bs = 0 then .ok i else .error .unexpectedOperand := by
  have hop : ¬ (op = 3 ∨ op = 4 ∨ op = 5) := fun hop => by rw [plainOperation_operand hop] at h; cases h
  push Not at hop
  obtain ⟨h3, h4, h5⟩ := hop
  rw [decode, if_neg h3, if_neg h4, if_neg h5, h]

theorem decode_undefined {op : Byte} (h : 56 < op.toNat) (bs : List Byte) :
    decode (op :: bs) = .error .undefinedOperation := by
  have ne (k : Byte) (hk : k.toNat ≤ 56) : op ≠ k := by rintro rfl; omega
  rw [decode, if_neg (ne 3 (by decide)), if_neg (ne 4 (by decide)), if_neg (ne 5 (by decide)), plainOperation_of_gt h]

/-- An operation byte is one of the three that take an operand, encodes an operation without one, or encodes none. -/
theorem operationByte_cases (op : Byte) :
    (op = 3 ∨ op = 4 ∨ op = 5) ∨ (∃ i, plainOperation op.toNat = some i) ∨ 56 < op.toNat := by
  by_cases h : op = 3 ∨ op = 4 ∨ op = 5
  · exact .inl h
  · push Not at h
    obtain ⟨h3, h4, h5⟩ := h
    by_cases hle : op.toNat ≤ 56
    · exact .inr (.inl (Option.isSome_iff_exists.mp (plainOperation_isSome hle h3 h4 h5)))
    · exact .inr (.inr (by omega))

/-! ### Encoder and decoder -/

theorem decode_operationByte {i : Instr} {bs : List Byte} (h : leNat bs = operandOf i) :
    decode (operationByte i :: bs) = .ok i := by
  cases i with
  | read n => rw [operationByte, decode_read, h, operandOf]
  | rdBe n => rw [operationByte, decode_rdBe, h, operandOf]
  | fhRdw k =>
    have hlt : leNat bs < 8 := h ▸ k.isLt
    have hk : (⟨leNat bs, hlt⟩ : Fin 8) = k := Fin.ext h
    rw [operationByte, decode_fhRdw hlt, hk]
  | _ => exact (decode_plain rfl bs).trans (if_pos h)

/-- A word that decodes is an operation byte and then bytes whose value is the operand. -/
theorem eq_ok_of_decode_cons {op : Byte} {bs : List Byte} {i : Instr} (h : decode (op :: bs) = .ok i) :
    op = operationByte i ∧ leNat bs = operandOf i := by
  rcases operationByte_cases op with (rfl | rfl | rfl) | ⟨j, hj⟩ | hgt
  · rw [decode_read] at h; cases h; exact ⟨rfl, rfl⟩
  · rw [decode_rdBe] at h; cases h; exact ⟨rfl, rfl⟩
  · by_cases hlt : leNat bs < 8
    · rw [decode_fhRdw hlt] at h; cases h; exact ⟨rfl, rfl⟩
    · rw [decode_fhRdw_of_ge (by omega)] at h; cases h
  · rw [decode_plain hj] at h
    split at h <;> cases h
    obtain ⟨hbyte, hoperand⟩ := plainOperation_eq_some hj
    exact ⟨BitVec.eq_of_toNat_eq hbyte, by omega⟩
  · rw [decode_undefined hgt] at h; cases h

/-- Settles O45: the operand bytes with zeros appended still have the operand as their value. -/
theorem decodeInvertsEncode : Obligations.DecodeInvertsEncode := by
  intro i k
  rw [encode, List.cons_append]
  exact decode_operationByte (by rw [leNat_append_zeros, leNat_operandBytes])

/-- Settles O46: a word and its operation's have one operation byte, and then bytes of one value. -/
theorem controlWordHasOneMeaning : Obligations.ControlWordHasOneMeaning := by
  intro word i h
  cases word with
  | nil => cases h
  | cons op bs =>
    obtain ⟨rfl, hoperand⟩ := eq_ok_of_decode_cons h
    refine ⟨_, _, congrArg (operationByte i :: ·) (append_zeros_eq_of_leNat_eq ?_)⟩
    rw [hoperand, leNat_operandBytes]

end Sys2Proof

namespace Sys2Proof.Machine

/-- Settles O44, one lemma per case of the decoder. -/
theorem undecodableControlWordIsRefused : Obligations.UndecodableControlWordIsRefused := by
  refine ⟨fun s nbits w h => ?_, rfl, fun b bs h => decode_undefined h bs, fun b bs h h3 h4 h5 hne => ?_,
    fun bs h => decode_fhRdw_of_ge h, fun bs => ⟨decode_read bs, decode_rdBe bs⟩⟩
  · have hseq : (s.withFetchWord nbits w).seq = [] := by rw [State.withFetchWord_seq, h]; rfl
    rw [step_idle hseq rfl, State.withFetchWord, h]; rfl
  · rcases operationByte_cases b with (hb | hb | hb) | ⟨i, hi⟩ | hgt
    · exact absurd hb h3
    · exact absurd hb h4
    · exact absurd hb h5
    · rw [decode_plain hi, if_neg (leNat_ne_zero hne)]
    · omega

end Sys2Proof.Machine

/-! ## What one read of the cursor has no part in

An operation that makes at most one read of the cursor neither looks at the sequence it stands in, nor writes what the
table does not list for it (30_encoding.md R102). Both reach the stages, the payload and, for the sequence, the commands. -/

namespace Sys2Proof

/-- The operations that write a word of the frame header (30_encoding.md R102, column "writes"). -/
def Instr.writesWords : Instr → Bool
  | .fhRdw _ | .decFhdr => true
  | _ => false

/-- The operations that write a sample and move the loop counters (R102; log 7). -/
def Instr.writesSamples : Instr → Bool
  | .smpRe | .smpIm | .decPayload => true
  | _ => false

theorem Instr.writesWords_eq_false {i : Instr} (h : ∀ k, i ≠ .fhRdw k) (h' : i ≠ .decFhdr) : i.writesWords = false := by
  cases i with
  | fhRdw k => exact absurd rfl (h k)
  | decFhdr => exact absurd rfl h'
  | _ => rfl

theorem Instr.writesSamples_eq_false {i : Instr} (h : i ≠ .smpRe) (h' : i ≠ .smpIm) (h'' : i ≠ .decPayload) :
    i.writesSamples = false := by
  cases i with
  | smpRe => exact absurd rfl h
  | smpIm => exact absurd rfl h'
  | decPayload => exact absurd rfl h''
  | _ => rfl

/-- What the operation is not listed to write, `j` is not listed to write either. -/
structure Instr.Covers (i j : Instr) : Prop where
  regs : ∀ r, i.writes r = false → j.writes r = false
  words : i.writesWords = false → j.writesWords = false
  samples : i.writesSamples = false → j.writesSamples = false

end Sys2Proof

namespace Sys2Proof.Machine

/-- The same state with another sequence left to run. -/
def State.withSeq (s : State) (q : List Instr) : State := { s with seq := q }

/-- The same attempt with another sequence left to run. -/
def reseq (q : List Instr) : Attempt → Attempt
  | .ok t => .ok (t.withSeq q)
  | .error t => .error (t.withSeq q)

@[simp] theorem reseq_ok (q : List Instr) (s : State) : reseq q (.ok s) = .ok (s.withSeq q) := rfl
@[simp] theorem reseq_error (q : List Instr) (s : State) : reseq q (.error s) = .error (s.withSeq q) := rfl

/-- What an operation does not write is as before. -/
structure State.Outside (i : Instr) (s t : State) : Prop where
  regs : ∀ r, i.writes r = false → t.f.get r = s.f.get r
  words : i.writesWords = false → t.w = s.w
  samples : i.writesSamples = false → t.samples = s.samples ∧ t.coord = s.coord

theorem State.Outside.refl (i : Instr) (s : State) : s.Outside i s := ⟨fun _ _ => rfl, fun _ => rfl, fun _ => ⟨rfl, rfl⟩⟩

theorem State.Outside.trans {i : Instr} {s t u : State} (h : s.Outside i t) (k : t.Outside i u) : s.Outside i u where
  regs r hr := (k.regs r hr).trans (h.regs r hr)
  words hw := (k.words hw).trans (h.words hw)
  samples hs := by
    obtain ⟨hsmp, hcoord⟩ := h.samples hs
    obtain ⟨ksmp, kcoord⟩ := k.samples hs
    exact ⟨ksmp.trans hsmp, kcoord.trans hcoord⟩

theorem State.Outside.of_covers {i j : Instr} {s t : State} (hc : i.Covers j) (h : s.Outside j t) : s.Outside i t where
  regs r hr := h.regs r (hc.regs r hr)
  words hw := h.words (hc.words hw)
  samples hs := h.samples (hc.samples hs)

/-- The operation is one read of `n` bytes that answers `f`, the same in every sequence, and writes what is listed. -/
structure IsRead (i : Instr) (n : Nat) (f : State → State) : Prop where
  reads : Reads n (attemptOf i) f
  seq : ∀ s q, f (s.withSeq q) = (f s).withSeq q
  outside : ∀ s : State, s.Outside i (f s)

section
variable {i : Instr} {r : Reg} {n : Nat}

/-- A change of one register, the one listed, leaves the rest. -/
theorem State.Outside.of_put {s t : State} (hi : ∀ q, i.writes q = (q == r)) (v : Option (BitVec r.width))
    (hf : t.f = s.f.put r v) (hw : t.w = s.w) (hs : t.samples = s.samples ∧ t.coord = s.coord) : s.Outside i t where
  regs q hq := by
    rw [hi, beq_eq_false_iff_ne] at hq
    rw [hf, RegFile.get_put_of_ne _ _ hq]
  words _ := hw
  samples _ := hs

theorem IsRead.readRun (ha : attemptOf i = fun s => s.readRun r n) (hi : ∀ q, i.writes q = (q == r)) :
    ∃ n f, IsRead i n f := by
  have reads := reads_readRun r n
  rw [← ha] at reads
  exact ⟨n, _, reads, fun _ _ => rfl, fun _ => .of_put hi _ rfl rfl ⟨rfl, rfl⟩⟩

theorem IsRead.readField (ha : attemptOf i = fun s => s.readField r n) (hi : ∀ q, i.writes q = (q == r)) :
    ∃ n f, IsRead i n f := by
  have reads := reads_readField r n
  rw [← ha] at reads
  exact ⟨n, _, reads, fun _ _ => rfl, fun _ => .of_put hi _ rfl rfl ⟨rfl, rfl⟩⟩

/-- A field cut from a word or from a latch reads no byte. -/
theorem IsRead.cut {v : State → Option (BitVec r.width)} (ha : attemptOf i = fun s => .ok (s.putReg r (v s)))
    (hv : ∀ s q, v (s.withSeq q) = v s) (hi : ∀ q, i.writes q = (q == r)) : ∃ n f, IsRead i n f :=
  ⟨0, fun s => s.putReg r (v s), ⟨fun s _ => by rw [ha], fun s h => absurd h (Nat.not_lt_zero _)⟩,
    fun s q => by rw [hv]; rfl, fun _ => .of_put hi _ rfl rfl ⟨rfl, rfl⟩⟩

theorem isRead_of_not_composite (h : i.isComposite = false) : ∃ n f, IsRead i n f := by
  cases i with
  | read n =>
    exact ⟨n, _, reads_readN n, fun _ _ => rfl, fun _ => ⟨fun _ _ => rfl, fun _ => rfl, fun _ => ⟨rfl, rfl⟩⟩⟩
  | rdBe n =>
    exact ⟨n, _, reads_rdBe n, fun _ _ => rfl, fun _ => ⟨fun _ _ => rfl, fun _ => rfl, fun _ => ⟨rfl, rfl⟩⟩⟩
  | fhRdw k => exact ⟨8, _, reads_fhRdw k, fun _ _ => rfl, fun s => ⟨fun _ _ => rfl, nofun, fun _ => ⟨rfl, rfl⟩⟩⟩
  | smpRe => exact ⟨2, _, reads_smpRe, fun _ _ => rfl, fun s => ⟨fun _ _ => rfl, fun _ => rfl, nofun⟩⟩
  | smpIm => exact ⟨2, _, reads_smpIm, fun _ _ => rfl, fun s => ⟨fun _ _ => rfl, fun _ => rfl, nofun⟩⟩
  | ethDst | ethSrc | ipSrc | ipDst => exact IsRead.readRun rfl fun _ => rfl
  | ethLen | ipTos | ipTotlen | ipId | ipTtl | ipProto | ipCsum | udpSport | udpDport | udpLen | udpCsum =>
    exact IsRead.readField rfl fun _ => rfl
  | fhW0Invalid | fhW0Complex | fhW0Epoch | fhW0Frame | fhW1Version | fhW1Bps | fhW1Arrlen | fhW1Refep | fhW1Srep
  | fhW1Unassigned | fhW1Station | fhW2Blklen | fhW2Chpt | fhW2Fgroup | fhW2Beam | fhW3Rsvd16 | fhW3Period
  | fhW3Rsvd32 | fhW4Ipp | fhW5Sync | fhW5Rsvd32 | fhW6Edv | fhW6Eud | fhW7Eud | ipVersion | ipIhl | ipFlags
  | ipFrag => exact IsRead.cut rfl (fun _ _ => rfl) fun _ => rfl
  | curInit | decEth | decIpv4 | decUdp | decEncap | decFhdr | decPayload | decodeBare | decodeEncap =>
    exact nomatch h

end

end Sys2Proof.Machine

/-! ## An operation does what it does in any sequence -/

namespace Sys2Proof.Machine

/-- The attempt is the same whatever is left to run. -/
def IgnoresSeq (a : State → Attempt) : Prop := ∀ s q, a (s.withSeq q) = reseq q (a s)

section
variable {a b : State → Attempt}

theorem IgnoresSeq.of_ok {f : State → State} (hf : ∀ s q, f (s.withSeq q) = (f s).withSeq q) :
    IgnoresSeq fun s => .ok (f s) := by
  intro s q
  simp only [hf, reseq_ok]

theorem IgnoresSeq.bind (ha : IgnoresSeq a) (hb : IgnoresSeq b) : IgnoresSeq fun s => a s >>= b := by
  intro s q
  simp only [ha s q]
  cases a s with
  | ok t => exact hb t q
  | error t => rfl

theorem IgnoresSeq.loop {body : Nat → State → Attempt} (h : ∀ i, IgnoresSeq (body i)) (n : Nat) :
    IgnoresSeq (forUpto n body) := by
  induction n with
  | zero => exact fun s q => rfl
  | succ n ih =>
    rw [show forUpto (n + 1) body = fun s => forUpto n body s >>= body n from funext fun s => forUpto_succ n body s]
    exact ih.bind (h n)

theorem IgnoresSeq.runAll {is : List Instr} (h : ∀ i ∈ is, IgnoresSeq (attemptOf i)) : IgnoresSeq (runAll is) := by
  induction is with
  | nil => exact fun s q => rfl
  | cons i is ih =>
    rw [List.forall_mem_cons] at h
    exact h.1.bind (ih h.2)

end

theorem IsRead.ignoresSeq {i : Instr} {n : Nat} {f : State → State} (h : IsRead i n f) : IgnoresSeq (attemptOf i) := by
  intro s q
  by_cases hn : n ≤ s.len - s.off
  · rw [h.reads.ok s hn, h.reads.ok (s.withSeq q) hn, h.seq, reseq_ok]
  · rw [h.reads.error s (by omega), h.reads.error (s.withSeq q) (Nat.lt_of_not_le hn), reseq_error]

theorem ignoresSeq_of_not_composite {i : Instr} (h : i.isComposite = false) : IgnoresSeq (attemptOf i) := by
  obtain ⟨n, f, hread⟩ := isRead_of_not_composite h
  exact hread.ignoresSeq

theorem ignoresSeq_stage {i : Instr} (hi : i ∈ stages) (h : ∀ j ∈ i.expansion, IgnoresSeq (attemptOf j)) :
    IgnoresSeq (attemptOf i) := by
  rw [show attemptOf i = runAll i.expansion from funext (attemptOf_stage hi)]
  exact IgnoresSeq.runAll h

theorem ignoresSeq_flatStage {i : Instr} (h : i ∈ flatStages) : IgnoresSeq (attemptOf i) := by
  simp only [flatStages, List.mem_cons, List.not_mem_nil, or_false] at h
  rcases h with rfl | rfl | rfl | rfl <;>
    exact ignoresSeq_stage (by decide) fun j hj => ignoresSeq_of_not_composite (by revert hj j; decide)

theorem ignoresSeq_decPayload : IgnoresSeq decPayload := by
  have sample (b c p : Nat) : IgnoresSeq (sampleAt b c p) :=
    (IgnoresSeq.of_ok (f := fun s => { s with coord := ⟨b, c, p⟩ }) fun _ _ => rfl).bind
      ((ignoresSeq_of_not_composite (i := .smpRe) rfl).bind (ignoresSeq_of_not_composite (i := .smpIm) rfl))
  intro s q
  exact IgnoresSeq.loop (fun b => .loop (fun c => .loop (sample b c) s.geom.nPol) s.geom.nCh) s.geom.nBlk s q

/-- Every operation at the cursor is the same in any sequence. -/
theorem ignoresSeq_atCursor {i : Instr} (h1 : i ≠ .curInit) (h2 : i ≠ .decodeBare) (h3 : i ≠ .decodeEncap) :
    IgnoresSeq (attemptOf i) := by
  cases i with
  | curInit => exact absurd rfl h1
  | decodeBare => exact absurd rfl h2
  | decodeEncap => exact absurd rfl h3
  | decPayload => exact ignoresSeq_decPayload
  | decEth | decIpv4 | decUdp | decFhdr => exact ignoresSeq_flatStage (by decide)
  | decEncap => exact ignoresSeq_stage (by decide) fun j hj => ignoresSeq_flatStage (by revert hj j; decide)
  | _ => exact ignoresSeq_of_not_composite rfl

/-- So is a command: it begins, runs its stages and commits (44_packet.md R210). -/
theorem ignoresSeq_command (m : Mode) : IgnoresSeq (attemptOf m.command) := by
  have body : IgnoresSeq (runAll m.body) := IgnoresSeq.runAll fun i hi => by
    apply ignoresSeq_atCursor <;> (rintro rfl; cases m <;> simp [Mode.body] at hi)
  rw [show attemptOf m.command = fun s => .ok s.beginTransaction >>= fun s => runAll m.body s >>= fun t => .ok (t.commit m)
    from funext (attemptOf_command m)]
  exact (IgnoresSeq.of_ok fun _ _ => rfl).bind (body.bind (IgnoresSeq.of_ok fun _ _ => rfl))

theorem ignoresSeq_attemptOf (i : Instr) : IgnoresSeq (attemptOf i) := by
  rcases instr_cases i with rfl | ⟨m, rfl⟩ | ⟨h1, h2, h3⟩
  · exact IgnoresSeq.of_ok fun _ _ => rfl
  · exact ignoresSeq_command m
  · exact ignoresSeq_atCursor h1 h2 h3

theorem attemptOf_ok_start {i : Instr} {s t : State} (h : attemptOf i s = .ok t) : t.start = s.start := by
  have hin : s.SameInputs t := exec_sameInputs (i := i) (by rw [exec_eq_settle, h, settle_ok])
  obtain ⟨-, -, -, -, hstart⟩ := hin
  exact hstart

theorem attemptOf_error_start {i : Instr} {s t : State} (h : attemptOf i s = .error t) : t.start = s.start := by
  have hin : s.SameInputs t.takeTruncated := exec_sameInputs (i := i) (by rw [exec_eq_settle, h, settle_error])
  obtain ⟨-, -, -, -, hstart⟩ := hin
  exact hstart

/-- What goes on leaves to run what was left to run. -/
theorem attemptOf_ok_seq {i : Instr} {s t : State} (h : attemptOf i s = .ok t) : t.seq = s.seq := by
  have same : attemptOf i s = reseq s.seq (attemptOf i s) := ignoresSeq_attemptOf i s s.seq
  rw [h, reseq_ok, Except.ok.injEq] at same
  rw [same]; rfl

/-- Operations in sequence, one step each, answer what they answer one after another: either all of them go on, or one
takes the exception, and then there is nothing left to run (30_encoding.md R103). -/
theorem run_seq (is : List Instr) {s : State} (hstart : s.start = false) (hseq : s.seq = []) :
    Host.Core.run Sys2Proof.core is.length (s.withSeq is) = settle (runAll is s) := by
  induction is generalizing s with
  | nil =>
    have same : s.withSeq [] = s := by rw [← hseq]; rfl
    rw [same]; rfl
  | cons i is ih =>
    have first : step (s.withSeq (i :: is)) = settle (reseq is (attemptOf i s)) := by
      rw [step_of_seq_cons (s := s.withSeq (i :: is)) rfl hstart, exec_eq_settle]
      exact congrArg settle (ignoresSeq_attemptOf i s is)
    rw [List.length_cons, runAll_cons]
    cases e : attemptOf i s with
    | ok t =>
      rw [e, reseq_ok, settle_ok] at first
      rw [run_succ _ first, ok_bind, ih ((attemptOf_ok_start e).trans hstart) ((attemptOf_ok_seq e).trans hseq)]
    | error t =>
      rw [e, reseq_error, settle_error] at first
      rw [run_succ _ first, run_idle (s := (t.withSeq is).takeTruncated) _ rfl ((attemptOf_error_start e).trans hstart)]
      rfl

/-- Settles O48: a stage runs its expansion, and a step does of the sequence what it does of the operation alone. -/
theorem stageEqualsItsExpansionStepByStep : Obligations.StageEqualsItsExpansionStepByStep := by
  intro s i hi hstart
  rw [exec_eq_settle, attemptOf_stage hi]
  exact run_seq i.expansion (s := s.withSeq []) hstart rfl

end Sys2Proof.Machine

/-! ## The payload as one sequence of sample operations (43_payload.md R200)

The loops visit the coordinates in the order of their linear indices (R203), and `SMP.IM` moves the loop counters in that
order too (log 7): so the coordinate that an iteration sets is the one that stands already. -/

namespace Sys2Proof.Machine

/-- The next coordinate is again within the extents of channels and polarizations, one linear index further. -/
theorem Coord.linear_next {g : Geometry} {x : Coord} (hc : x.c < g.nCh) (hp : x.p < g.nPol) :
    (x.next g).c < g.nCh ∧ (x.next g).p < g.nPol ∧
      g.linear (x.next g).b (x.next g).c (x.next g).p = g.linear x.b x.c x.p + 1 := by
  unfold Coord.next Geometry.linear
  split_ifs with h1 h2
  · exact ⟨hc, h1, rfl⟩
  · have last : x.p + 1 = g.nPol := by omega
    exact ⟨h2, Nat.zero_lt_of_lt hp, by rw [Nat.add_assoc, last]; ring⟩
  · have lastP : x.p + 1 = g.nPol := by omega
    have lastC : x.c + 1 = g.nCh := by omega
    exact ⟨Nat.zero_lt_of_lt hc, Nat.zero_lt_of_lt hp, by rw [Nat.add_assoc, lastP, ← lastC]; ring⟩

/-- `n` times the two operations of a sample. -/
def samplePairs (n : Nat) : List Instr := (List.replicate n [.smpRe, .smpIm]).flatten

theorem samplePairs_add (n k : Nat) : samplePairs (n + k) = samplePairs n ++ samplePairs k := by
  rw [samplePairs, ← List.replicate_append_replicate, List.flatten_append]; rfl

theorem length_samplePairs (n : Nat) : (samplePairs n).length = n * 2 := by
  simp [samplePairs]

/-- The sample of linear index `k` is the current one, where the extents have samples at all. -/
def AtSample (g : Geometry) (k : Nat) (s : State) : Prop :=
  s.geom = g ∧ (0 < g.nCh → 0 < g.nPol →
    s.coord.c < g.nCh ∧ s.coord.p < g.nPol ∧ g.linear s.coord.b s.coord.c s.coord.p = k)

/-- From sample `k` on, the attempt does what the operations of `n` samples do, and comes to sample `k + n`. -/
def Unrolls (g : Geometry) (k n : Nat) (a : State → Attempt) : Prop :=
  ∀ s, AtSample g k s → a s = runAll (samplePairs n) s ∧ ∀ t, a s = .ok t → AtSample g (k + n) t

section
variable {g : Geometry} {k n m : Nat} {a b : State → Attempt}

theorem Unrolls.bind (ha : Unrolls g k n a) (hb : Unrolls g (k + n) m b) :
    Unrolls g k (n + m) fun s => a s >>= b := by
  intro s hs
  obtain ⟨first, reached⟩ := ha s hs
  refine ⟨?_, fun t ht => ?_⟩
  · rw [samplePairs_add, runAll_append, ← first]
    cases e : a s with
    | ok t => simpa only [e, ok_bind] using (hb t (reached t e)).1
    | error t => simp only [e]; rfl
  · obtain ⟨u, hu, hut⟩ := ok_bind_iff.mp ht
    rw [← Nat.add_assoc]
    exact (hb u (reached u hu)).2 t hut

/-- A loop whose iterations follow one another in linear index. -/
theorem Unrolls.loop {body : Nat → State → Attempt} (h : ∀ i < n, Unrolls g (k + i * m) m (body i)) :
    Unrolls g k (n * m) (forUpto n body) := by
  induction n with
  | zero =>
    rw [Nat.zero_mul]
    exact fun s hs => ⟨rfl, fun t ht => by cases ht; exact hs⟩
  | succ n ih =>
    rw [Nat.succ_mul, show forUpto (n + 1) body = fun s => forUpto n body s >>= body n from
      funext fun s => forUpto_succ n body s]
    exact (ih fun i hi => h i (by omega)).bind (h n (by omega))

end

/-- The coordinate that an iteration sets is the current one. -/
theorem unrolls_sampleAt {g : Geometry} {b c p : Nat} (hc : c < g.nCh) (hp : p < g.nPol) :
    Unrolls g (g.linear b c p) 1 (sampleAt b c p) := by
  rintro s ⟨hg, hat⟩
  obtain ⟨hsc, hsp, hk⟩ := hat (by omega) (by omega)
  obtain ⟨hb', hc', hp'⟩ := Geometry.linear_inj hsc hsp hc hp hk
  have current : ({ s with coord := ⟨b, c, p⟩ } : State) = s := by rw [← hb', ← hc', ← hp']
  refine ⟨?_, fun t ht => ?_⟩
  · rw [sampleAt, current]
    exact (congrArg (smpRe s >>= ·) (funext fun t => runAll_singleton .smpIm t)).symm
  · obtain rfl := sampleAt_eq_ok ht
    rw [current]
    refine ⟨hg, fun _ _ => ?_⟩
    have next := Coord.linear_next hsc hsp
    rw [hk] at next
    exact hg ▸ next

theorem unrolls_payload (g : Geometry) : Unrolls g 0 (g.nBlk * (g.nCh * (g.nPol * 1)))
    (forUpto g.nBlk fun b => forUpto g.nCh fun c => forUpto g.nPol fun p => sampleAt b c p) := by
  refine Unrolls.loop fun b _ => Unrolls.loop fun c hc => Unrolls.loop fun p hp => ?_
  have index : 0 + b * (g.nCh * (g.nPol * 1)) + c * (g.nPol * 1) + p * 1 = g.linear b c p := by
    rw [Geometry.linear]; ring
  rw [index]
  exact unrolls_sampleAt hc hp

/-- The payload from the first sample on. -/
theorem decPayload_eq_runAll {s : State} (h : s.coord = ⟨0, 0, 0⟩) :
    decPayload s = runAll (samplePairs (s.geom.nBlk * s.geom.nCh * s.geom.nPol)) s := by
  have start : AtSample s.geom 0 s := ⟨rfl, fun hc hp => by rw [h]; exact ⟨hc, hp, by simp [Geometry.linear]⟩⟩
  rw [decPayload, (unrolls_payload s.geom s start).1, Nat.mul_one, Nat.mul_assoc]

/-- Settles O49, as O48: the payload is a sequence, whose operations do in it what they do alone. -/
theorem payloadEqualsItsExpansionStepByStep : Obligations.PayloadEqualsItsExpansionStepByStep := by
  intro s hstart hcoord
  have run := run_seq (samplePairs (s.geom.nBlk * s.geom.nCh * s.geom.nPol)) (s := s.withSeq []) hstart rfl
  have payload := decPayload_eq_runAll (s := s.withSeq []) hcoord
  rw [length_samplePairs] at run
  rw [exec_eq_settle]
  exact run.trans (congrArg settle payload.symm)

end Sys2Proof.Machine

/-! ## What an operation leaves as it was (30_encoding.md R102) -/

namespace Sys2Proof.Machine

/-- Where the attempt goes on, what `i` does not write is as before. -/
def Leaves (i : Instr) (a : State → Attempt) : Prop := ∀ s t, a s = .ok t → s.Outside i t

section
variable {i j : Instr} {a b : State → Attempt}

theorem Leaves.bind (ha : Leaves i a) (hb : Leaves i b) : Leaves i fun s => a s >>= b := by
  intro s t h
  obtain ⟨u, hu, ht⟩ := ok_bind_iff.mp h
  exact (ha s u hu).trans (hb u t ht)

theorem Leaves.loop {body : Nat → State → Attempt} (h : ∀ k, Leaves i (body k)) (n : Nat) :
    Leaves i (forUpto n body) := by
  induction n with
  | zero => intro s t e; cases e; exact State.Outside.refl i s
  | succ n ih =>
    rw [show forUpto (n + 1) body = fun s => forUpto n body s >>= body n from funext fun s => forUpto_succ n body s]
    exact ih.bind (h n)

theorem Leaves.runAll {is : List Instr} (h : ∀ j ∈ is, Leaves i (attemptOf j)) : Leaves i (runAll is) := by
  induction is with
  | nil => intro s t e; cases e; exact State.Outside.refl i s
  | cons j is ih =>
    rw [List.forall_mem_cons] at h
    exact h.1.bind (ih h.2)

theorem Leaves.of_covers (hc : i.Covers j) (h : Leaves j a) : Leaves i a :=
  fun s t e => (h s t e).of_covers hc

theorem IsRead.leaves {n : Nat} {f : State → State} (h : IsRead i n f) : Leaves i (attemptOf i) := by
  intro s t e
  obtain rfl := h.reads.eq_of_ok e
  exact h.outside s

end

theorem leaves_of_not_composite {i : Instr} (h : i.isComposite = false) : Leaves i (attemptOf i) := by
  obtain ⟨n, f, hread⟩ := isRead_of_not_composite h
  exact hread.leaves

/-- A stage writes what its expansion writes (R102, R103). -/
theorem expansion_any_writes {i : Instr} (h : i ∈ stages) (r : Reg) :
    i.expansion.any (Instr.writes r) = i.writes r := by
  simp only [stages, List.mem_cons, List.not_mem_nil, or_false] at h
  rcases h with rfl | rfl | rfl | rfl | rfl <;> cases r <;> rfl

theorem covers_of_mem_expansion {i j : Instr} (h : i ∈ stages) (hj : j ∈ i.expansion) : i.Covers j := by
  have words : ∀ i ∈ stages, ∀ j ∈ i.expansion, i.writesWords = false → j.writesWords = false := by decide
  have samples : ∀ i ∈ stages, ∀ j ∈ i.expansion, i.writesSamples = false → j.writesSamples = false := by decide
  refine ⟨fun r hr => ?_, words i h j hj, samples i h j hj⟩
  rw [← expansion_any_writes h, List.any_eq_false] at hr
  exact Bool.eq_false_of_not_eq_true (hr j hj)

theorem leaves_stage {i : Instr} (hi : i ∈ stages) (h : ∀ j ∈ i.expansion, Leaves j (attemptOf j)) :
    Leaves i (attemptOf i) := by
  rw [show attemptOf i = runAll i.expansion from funext (attemptOf_stage hi)]
  exact Leaves.runAll fun j hj => (h j hj).of_covers (covers_of_mem_expansion hi hj)

theorem leaves_flatStage {i : Instr} (h : i ∈ flatStages) : Leaves i (attemptOf i) := by
  simp only [flatStages, List.mem_cons, List.not_mem_nil, or_false] at h
  rcases h with rfl | rfl | rfl | rfl <;>
    exact leaves_stage (by decide) fun j hj => leaves_of_not_composite (by revert hj j; decide)

/-- The payload writes what its two operations write, and the loop counters. -/
theorem leaves_decPayload : Leaves .decPayload decPayload := by
  have coord (x : Coord) : Leaves .decPayload fun s => .ok { s with coord := x } := by
    intro s t e
    cases e
    exact ⟨fun _ _ => rfl, fun _ => rfl, nofun⟩
  have re : Leaves .decPayload smpRe :=
    (leaves_of_not_composite (i := .smpRe) rfl).of_covers ⟨fun _ _ => rfl, fun _ => rfl, nofun⟩
  have im : Leaves .decPayload smpIm :=
    (leaves_of_not_composite (i := .smpIm) rfl).of_covers ⟨fun _ _ => rfl, fun _ => rfl, nofun⟩
  have sample (b c p : Nat) : Leaves .decPayload (sampleAt b c p) := (coord ⟨b, c, p⟩).bind (re.bind im)
  intro s
  exact Leaves.loop (fun b => .loop (fun c => .loop (sample b c) s.geom.nPol) s.geom.nCh) s.geom.nBlk s

/-- Every operation but the commands writes what it is listed to write. -/
theorem leaves_attemptOf {i : Instr} (h2 : i ≠ .decodeBare) (h3 : i ≠ .decodeEncap) : Leaves i (attemptOf i) := by
  cases i with
  | curInit => intro s t e; cases e; exact ⟨fun _ _ => rfl, fun _ => rfl, fun _ => ⟨rfl, rfl⟩⟩
  | decodeBare => exact absurd rfl h2
  | decodeEncap => exact absurd rfl h3
  | decPayload => exact leaves_decPayload
  | decEth | decIpv4 | decUdp | decFhdr => exact leaves_flatStage (by decide)
  | decEncap => exact leaves_stage (by decide) fun j hj => leaves_flatStage (by revert hj j; decide)
  | _ => exact leaves_of_not_composite rfl

/-- An operation that has its bytes goes on, and its run with it. -/
theorem exec_of_needs {i : Instr} {s t : State} (h2 : i ≠ .decodeBare) (h3 : i ≠ .decodeEncap)
    (hn : i.needs s.geom ≤ s.len - s.off) (h : exec i s = .next t) : attemptOf i s = .ok t ∧ s.SameRun t := by
  by_cases h1 : i = .curInit
  · subst h1
    obtain rfl : { s with off := 0 } = t := by cases h; rfl
    exact ⟨rfl, State.SameRun.refl s⟩
  · obtain ⟨u, e, -, hrun⟩ := (moves_attemptOf h1 h2 h3).ok s rfl hn
    rw [exec_eq_settle, e] at h
    cases h
    exact ⟨e, hrun⟩

/-- Settles O54: what `Leaves` says of an operation that goes on, and its run as before. -/
theorem operationsWriteOnlyTheirOwnState : Obligations.OperationsWriteOnlyTheirOwnState := by
  intro s t i h2 h3 hn h
  obtain ⟨e, hin, hstatus, hseq⟩ := exec_of_needs h2 h3 hn h
  obtain ⟨regs, words, samples⟩ := leaves_attemptOf h2 h3 s t e
  obtain ⟨buffer, -⟩ := hin.buffer
  obtain ⟨-, -, -, -, hstart⟩ := hin
  exact ⟨regs, fun hk hf => words (Instr.writesWords_eq_false hk hf),
    fun hre him hpl => samples (Instr.writesSamples_eq_false hre him hpl), hseq, hstart, hstatus, buffer⟩

end Sys2Proof.Machine

/-! ## The cursor's three operations (40_cursor.md) -/

namespace Sys2Proof.Machine

section
variable {i : Instr} {n : Nat} {f : State → State} {s : State}

theorem Reads.exec_of_le (h : Reads n (attemptOf i) f) (hn : n ≤ s.len - s.off) : exec i s = .next (f s) := by
  rw [exec_eq_settle, h.ok s hn, settle_ok]

theorem Reads.exec_of_lt (h : Reads n (attemptOf i) f) (hn : s.len - s.off < n) :
    exec i s = .next s.takeTruncated := by
  rw [exec_eq_settle, h.error s hn, settle_error]

end

theorem exec_read_of_le {s : State} {n : Nat} (h : n ≤ s.len - s.off) : exec (.read n) s = .next (s.afterRead n) :=
  (reads_readN n).exec_of_le (i := .read n) h

theorem exec_read_of_lt {s : State} {n : Nat} (h : s.len - s.off < n) : exec (.read n) s = .next s.takeTruncated :=
  (reads_readN n).exec_of_lt (i := .read n) h

theorem State.byteAt_of_lt {s : State} {a : Nat} (h : a < s.len) : s.byteAt a = some (s.mem.get a) := if_pos h

/-- Settles O3. -/
theorem cursorInitSetsOffsetToZero : Obligations.CursorInitSetsOffsetToZero := by
  intro s
  rw [exec_eq_settle]
  rfl

/-- Settles O4: every byte that is delivered lies below `LEN`, and so is the buffer's. -/
theorem readDeliversNextBytesOrTruncates : Obligations.ReadDeliversNextBytesOrTruncates := by
  intro s n hs
  refine ⟨fun h => ⟨exec_read_of_le (by omega), Memory.length_bytes _ _ _, fun i hi => ?_⟩,
    fun h => exec_read_of_lt (by omega)⟩
  rw [Memory.getElem?_bytes _ _ _ _ hi, State.byteAt_of_lt (by omega)]

/-- Settles O5: the value of `n` bytes is one of `n` digits in base 256. -/
theorem readBigEndianReturnsValue : Obligations.ReadBigEndianReturnsValue := by
  intro s n
  have reads : Reads n (attemptOf (.rdBe n)) (·.afterReadBe n) := reads_rdBe n
  have bound := be_lt (s.mem.bytes s.off n)
  rw [Memory.length_bytes] at bound
  exact ⟨fun h => ⟨reads.exec_of_le h, bound⟩, reads.exec_of_lt⟩

/-- Settles O9: the second read begins where the first one ended. -/
theorem splitReadEqualsWholeRead : Obligations.SplitReadEqualsWholeRead := by
  intro s a b h
  have second : b ≤ (s.afterRead a).len - (s.afterRead a).off :=
    show b ≤ s.len - (s.off + a) by omega
  refine ⟨_, _, _, _, _, exec_read_of_le (by omega), exec_read_of_le second, exec_read_of_le h, rfl, rfl, ?_, ?_⟩
  · exact congrArg some (Memory.bytes_add s.mem s.off a b)
  · exact Nat.add_assoc s.off a b

/-- Reads in sequence move by their total. -/
theorem moves_reads (g : Geometry) (ns : List Nat) : Moves g ns.sum (runAll (ns.map .read)) := by
  have total : ((ns.map Instr.read).map (Instr.needs g)).sum = ns.sum := by
    rw [List.map_map, show Instr.needs g ∘ Instr.read = id from rfl, List.map_id]
  rw [← total]
  refine Moves.runAll fun i hi => ?_
  obtain ⟨n, -, rfl⟩ := List.mem_map.mp hi
  exact moves_of_not_composite rfl

section
variable {s : State} {ns : List Nat} {n : Nat}

/-- With the total in the buffer, the last read delivers the bytes after those of all earlier reads. -/
theorem runAll_reads_of_le (hoff : s.off = 0) (h : ns.sum + n ≤ s.len) :
    ∃ t, runAll ((ns ++ [n]).map .read) s = .ok t ∧ t.off = ns.sum + n ∧ t.status = s.status ∧
      t.retBytes = some (s.mem.bytes ns.sum n) := by
  obtain ⟨u, earlier, hu, ⟨hmem, hlen, -⟩, hstatus, -⟩ := (moves_reads s.geom ns).ok s rfl (by omega)
  rw [hoff, Nat.zero_add] at hu
  have last : attemptOf (.read n) u = .ok (u.afterRead n) := (reads_readN n).ok u (by omega)
  refine ⟨u.afterRead n, ?_, congrArg (· + n) hu, hstatus, ?_⟩
  · rw [List.map_append, runAll_append, earlier, ok_bind, List.map_singleton, runAll_singleton, last]
  · rw [← hmem, ← hu]
    rfl

/-- With less, one of the reads runs short. -/
theorem runAll_reads_of_lt (hoff : s.off = 0) (h : s.len < ns.sum + n) :
    ∃ t, runAll ((ns ++ [n]).map .read) s = .error t := by
  have total : (ns ++ [n]).sum = ns.sum + n := by rw [List.sum_append, List.sum_singleton]
  obtain ⟨t, short, -⟩ := (moves_reads s.geom (ns ++ [n])).short s rfl (by omega)
  exact ⟨t, short⟩

end

/-- Settles O8: in sequence the reads answer what they answer one after another, and move by their total or run short. -/
theorem readsRunInSequence : Obligations.ReadsRunInSequence := by
  intro s ns n hoff hstart hstatus
  have run := run_seq ((ns ++ [n]).map .read) (s := s.withSeq []) hstart rfl
  rw [List.length_map, List.length_append, List.length_singleton] at run
  refine ⟨fun h => ?_, fun h => ?_⟩
  · obtain ⟨t, reads, hend, hstatus', delivered⟩ := runAll_reads_of_le (s := s.withSeq []) hoff h
    rw [reads] at run
    exact ⟨t, run, hend, hstatus'.trans hstatus, delivered⟩
  · obtain ⟨t, short⟩ := runAll_reads_of_lt (s := s.withSeq []) hoff h
    rw [short] at run
    exact ⟨t.takeTruncated, run, rfl, rfl, rfl⟩

end Sys2Proof.Machine

/-! ## The fields of the frame header (41_frame_header.md R130 to R155)

A field is cut from its word by place and width alone, as the container table gives them (30_encoding.md R81). -/

namespace Sys2Proof.Machine

/-- The word that a frame-header register is cut from (R81). -/
def Reg.frameWord (r : Reg) : Fin 8 := Fin.ofNat 8 (r.place.1 / 8)

/-- The bits of a word at the place and of the width of a register (R81). -/
def Reg.cut (r : Reg) (v : FrameWord) : BitVec r.width := BitVec.ofNat r.width (v.toNat / 2 ^ r.place.2.2)

/-- What a field operation puts into its register: the field of its word, or no value where the word has none. -/
def State.frameField (s : State) (r : Reg) : Option (BitVec r.width) := (s.word r.frameWord).map r.cut

/-- The container of a frame-header register is one of the eight words, and the field lies in it (R81). -/
theorem Reg.place_of_isFrame {r : Reg} (h : r.isFrame = true) :
    r.place.1 = 8 * r.frameWord.val ∧ r.place.2.1 = 8 ∧ r.place.2.2 + r.width ≤ 64 := by
  revert h
  cases r <;> decide

theorem State.wordField_eq (s : State) (k : Fin 8) {hi lo : Nat} (h : hi < 64) (hl : lo ≤ hi) :
    s.wordField k hi lo = (s.word k).map fun v => BitVec.ofNat (hi - lo + 1) (v.toNat / 2 ^ lo) := by
  have cut (v : FrameWord) : ext v hi lo = BitVec.ofNat (hi - lo + 1) (v.toNat / 2 ^ lo) :=
    BitVec.eq_of_toNat_eq (by rw [toNat_ext v h hl, BitVec.toNat_ofNat])
  rw [State.wordField, funext cut]

/-- Each field operation writes the field of its target (R132 to R155). -/
theorem attemptOf_frameCut {i : Instr} {r : Reg} (h : i.target = some r) (hr : r.isFrame = true) (s : State) :
    attemptOf i s = .ok (s.putReg r (s.frameField r)) := by
  cases i with
  | fhW0Invalid | fhW0Complex | fhW0Epoch | fhW0Frame | fhW1Version | fhW1Bps | fhW1Arrlen | fhW1Refep | fhW1Srep
  | fhW1Unassigned | fhW1Station | fhW2Blklen | fhW2Chpt | fhW2Fgroup | fhW2Beam | fhW3Rsvd16 | fhW3Period
  | fhW3Rsvd32 | fhW4Ipp | fhW5Sync | fhW5Rsvd32 | fhW6Edv | fhW6Eud | fhW7Eud =>
    cases h
    exact congrArg (fun x => Except.ok (s.putReg _ x)) (s.wordField_eq _ (by decide) (by decide))
  | _ => cases h <;> cases hr

theorem exec_frameCut {i : Instr} {r : Reg} (h : i.target = some r) (hr : r.isFrame = true) (s : State) :
    exec i s = .next (s.putReg r (s.frameField r)) := by
  rw [exec_eq_settle, attemptOf_frameCut h hr, settle_ok]

theorem exec_frameCut_of_word {i : Instr} {r : Reg} (h : i.target = some r) (hr : r.isFrame = true) {s : State}
    {v : FrameWord} (hv : s.word r.frameWord = some v) : exec i s = .next (s.putReg r (some (r.cut v))) := by
  rw [exec_frameCut h hr, State.frameField, hv, Option.map_some]

/-- Settles O10. -/
theorem wordZeroFieldsAreCut : Obligations.WordZeroFieldsAreCut := by
  intro s v h
  exact ⟨exec_frameCut_of_word rfl rfl h, exec_frameCut_of_word rfl rfl h, exec_frameCut_of_word rfl rfl h,
    exec_frameCut_of_word rfl rfl h⟩

/-- Settles O11. -/
theorem wordOneFieldsAreCut : Obligations.WordOneFieldsAreCut := by
  intro s v h
  exact ⟨exec_frameCut_of_word rfl rfl h, exec_frameCut_of_word rfl rfl h, exec_frameCut_of_word rfl rfl h,
    exec_frameCut_of_word rfl rfl h, exec_frameCut_of_word rfl rfl h, exec_frameCut_of_word rfl rfl h,
    exec_frameCut_of_word rfl rfl h⟩

/-- Settles O12. -/
theorem wordsTwoAndThreeFieldsAreCut : Obligations.WordsTwoAndThreeFieldsAreCut := by
  intro s v
  refine ⟨fun h => ?_, fun h => ?_⟩
  · exact ⟨exec_frameCut_of_word rfl rfl h, exec_frameCut_of_word rfl rfl h, exec_frameCut_of_word rfl rfl h,
      exec_frameCut_of_word rfl rfl h⟩
  · exact ⟨exec_frameCut_of_word rfl rfl h, exec_frameCut_of_word rfl rfl h, exec_frameCut_of_word rfl rfl h⟩

/-- Settles O13. -/
theorem wordsFourToSevenFieldsAreCut : Obligations.WordsFourToSevenFieldsAreCut := by
  intro s v
  refine ⟨fun h => ?_, fun h => ?_, fun h => ?_, fun h => ?_⟩
  · exact exec_frameCut_of_word rfl rfl h
  · exact ⟨exec_frameCut_of_word rfl rfl h, exec_frameCut_of_word rfl rfl h⟩
  · exact ⟨exec_frameCut_of_word rfl rfl h, exec_frameCut_of_word rfl rfl h⟩
  · exact exec_frameCut_of_word rfl rfl h

/-- Settles O15: the two cases of the read. -/
theorem wordReadFillsItsWord : Obligations.WordReadFillsItsWord := by
  intro s k
  have reads : Reads 8 (attemptOf (.fhRdw k)) (·.afterWord k) := reads_fhRdw k
  refine ⟨fun h => ⟨s.afterWord k, reads.exec_of_le h, ?_, fun j hj => ?_, rfl, rfl, rfl, rfl, rfl, rfl,
    rfl, rfl, rfl, rfl, rfl⟩, reads.exec_of_lt⟩
  · rw [State.word_afterWord, if_pos rfl]
    rfl
  · rw [State.word_afterWord, if_neg fun e => hj (Fin.ext e.symm)]

end Sys2Proof.Machine

/-! ## What the frame-header stage leaves (41_frame_header.md R130) -/

namespace Sys2Proof.Machine

/-- The word `k` of the frame header that begins at `base` (R81). -/
def State.headerWord (s : State) (base : Nat) (k : Fin 8) : FrameWord :=
  BitVec.ofNat 64 (s.beAt (base + 8 * k.val) 8)

theorem State.toNat_headerWord (s : State) (base : Nat) (k : Fin 8) :
    (s.headerWord base k).toNat = s.beAt (base + 8 * k.val) 8 := by
  have bound := be_lt (s.mem.bytes (base + 8 * k.val) 8)
  rw [Memory.length_bytes] at bound
  rw [State.headerWord, BitVec.toNat_ofNat]
  exact Nat.mod_eq_of_lt bound

/-- The layout's value of a frame-header register is cut from the layout's word. -/
theorem State.cut_headerWord (s : State) (base : Nat) {r : Reg} (hr : r.isFrame = true) :
    r.cut (s.headerWord base r.frameWord) = s.fieldAt base r := by
  obtain ⟨hbase, hbytes, -⟩ := Reg.place_of_isFrame hr
  rw [Reg.cut, State.toNat_headerWord, State.fieldAt, hbase, hbytes]

/-- In a run that began in `s` the first `n` words have been read. -/
structure WordsRead (s : State) (n : Nat) (u : State) : Prop where
  mem : u.mem = s.mem
  off : u.off = s.off + 8 * n
  words : ∀ k : Fin 8, k.val < n → u.word k = some (s.headerWord s.off k)

theorem WordsRead.next {s u t : State} {k : Fin 8} (h : WordsRead s k u) (e : attemptOf (.fhRdw k) u = .ok t) :
    WordsRead s (k + 1) t := by
  obtain rfl : t = u.afterWord k := (reads_fhRdw k).eq_of_ok e
  refine ⟨h.mem, ?_, fun j hj => ?_⟩
  · calc u.off + 8 = s.off + 8 * k.val + 8 := by rw [h.off]
      _ = s.off + 8 * (k.val + 1) := by ring
  · rw [State.word_afterWord]
    split
    case isTrue hjk =>
      rw [h.mem, h.off, hjk]
      rfl
    case isFalse hjk => exact h.words j (by omega)

/-- Words read in their order. -/
theorem WordsRead.runAll {s u t : State} {n : Nat} {ks : List (Fin 8)} (hks : ks.map Fin.val = List.range' n ks.length)
    (h : WordsRead s n u) (e : runAll (ks.map .fhRdw) u = .ok t) : WordsRead s (n + ks.length) t := by
  induction ks generalizing n u with
  | nil => cases e; exact h
  | cons k ks ih =>
    rw [List.map_cons, List.length_cons, List.range'_succ, List.cons.injEq] at hks
    obtain ⟨rfl, htail⟩ := hks
    obtain ⟨v, hv, ht⟩ := ok_bind_iff.mp e
    rw [List.length_cons, Nat.add_comm ks.length, ← Nat.add_assoc]
    exact ih htail (h.next hv) ht

theorem target_of_mem_frameCuts : ∀ i ∈ frameCuts, ∃ r, i.target = some r ∧ r.isFrame = true := by
  simp [frameCuts, Instr.target, Reg.isFrame]

theorem Instr.writes_of_target {i : Instr} {r : Reg} (h : i.target = some r) (q : Reg) :
    i.writes q = (q == r) := by
  cases i <;> cases h <;> rfl

/-- Field operations in sequence write their fields and nothing else: none touches a word that another is cut from. -/
theorem runAll_frameCuts {is : List Instr} (h : ∀ i ∈ is, i ∈ frameCuts) (s : State) :
    ∃ f, runAll is s = .ok { s with f := f } ∧
      ∀ q, f.get q = if is.any (Instr.writes q) then s.frameField q else s.f.get q := by
  induction is generalizing s with
  | nil => exact ⟨s.f, rfl, fun q => rfl⟩
  | cons i is ih =>
    rw [List.forall_mem_cons] at h
    obtain ⟨r, htarget, hr⟩ := target_of_mem_frameCuts i h.1
    obtain ⟨f, hf, hget⟩ := ih h.2 (s.putReg r (s.frameField r))
    refine ⟨f, by rw [runAll_cons, attemptOf_frameCut htarget hr, ok_bind, hf]; rfl, fun q => ?_⟩
    rw [hget, List.any_cons, Instr.writes_of_target htarget, State.putReg_f]
    by_cases hq : q = r
    · subst hq
      simp only [RegFile.get_put_same, beq_self_eq_true, Bool.true_or, if_true]
      exact ite_self _
    · rw [RegFile.get_put_of_ne _ _ hq, beq_false_of_ne hq, Bool.false_or]
      rfl

/-- The field operations write every register of the frame header (R130). -/
theorem frameCuts_any_writes (r : Reg) : frameCuts.any (Instr.writes r) = r.isFrame := by
  cases r <;> rfl

/-- The stage reads the eight words in their order and then cuts every field (R130). -/
theorem decFhdr_eq_ok {s t : State} (h : attemptOf .decFhdr s = .ok t) :
    (∀ k, t.word k = some (s.headerWord s.off k)) ∧ ∀ r, r.isFrame = true → t.f.get r = some (s.fieldAt s.off r) := by
  have order : Instr.decFhdr.expansion = (List.finRange 8).map .fhRdw ++ frameCuts := rfl
  rw [attemptOf_stage (by decide), order, runAll_append] at h
  obtain ⟨u, hu, ht⟩ := ok_bind_iff.mp h
  have words : WordsRead s 8 u :=
    WordsRead.runAll (n := 0) (by decide) ⟨rfl, rfl, fun k hk => absurd hk (Nat.not_lt_zero _)⟩ hu
  obtain ⟨f, hf, hget⟩ := runAll_frameCuts (fun _ => id) u
  obtain rfl : { u with f := f } = t := by rw [hf] at ht; cases ht; rfl
  refine ⟨fun k => words.words k k.isLt, fun r hr => ?_⟩
  rw [hget, frameCuts_any_writes, if_pos hr, State.frameField, words.words _ (Fin.isLt _), Option.map_some,
    State.cut_headerWord s s.off hr]

/-- Settles O23: the words and fields by `decFhdr_eq_ok`, the rest as for any operation that has its bytes. -/
theorem frameHeaderStageDecodesAllFields : Obligations.FrameHeaderStageDecodesAllFields := by
  intro s h
  obtain ⟨t, e, hoff, hin, hstatus, hseq⟩ :=
    (moves_attemptOf (g := s.geom) (i := .decFhdr) nofun nofun nofun).ok s rfl h
  obtain ⟨regs, -, samples⟩ := leaves_attemptOf (i := .decFhdr) nofun nofun s t e
  obtain ⟨hsamples, hcoord⟩ := samples rfl
  obtain ⟨words, fields⟩ := decFhdr_eq_ok e
  refine ⟨t, by rw [exec_eq_settle, e, settle_ok], hoff, words, fun r => ?_, hsamples, hstatus, hcoord, hseq, hin⟩
  split
  case isTrue hr => exact fields r hr
  case isFalse hr => exact regs r (Bool.eq_false_of_not_eq_true hr)

/-- With its bytes the stage goes on, every frame-header register with the layout's value. -/
theorem exec_decFhdr {s : State} (h : 64 ≤ s.len - s.off) :
    ∃ t, exec .decFhdr s = .next t ∧ ∀ r, r.isFrame = true → t.f.get r = some (s.fieldAt s.off r) := by
  obtain ⟨t, e, -, -, regs, -⟩ := frameHeaderStageDecodesAllFields s h
  exact ⟨t, e, fun r hr => by rw [regs, if_pos hr]⟩

/-! ### The bits of a field (R160, R161) -/

/-- Two fields cut alike are equal exactly if the bits they are cut from are. -/
theorem ofNat_div_two_pow_inj {w lo x y : Nat} :
    BitVec.ofNat w (x / 2 ^ lo) = BitVec.ofNat w (y / 2 ^ lo) ↔
      ∀ b, lo ≤ b → b < lo + w → x.testBit b = y.testBit b := by
  have bit (x j : Nat) (hj : j < w) : (BitVec.ofNat w (x / 2 ^ lo)).getLsbD j = x.testBit (j + lo) := by
    rw [BitVec.getLsbD_ofNat, decide_eq_true hj, Bool.true_and, Nat.testBit_div_two_pow]
  refine ⟨fun h b hlo hb => ?_, fun h => BitVec.eq_of_getLsbD_eq fun j hj => ?_⟩
  · have same := congrArg (BitVec.getLsbD · (b - lo)) h
    simp only [bit _ (b - lo) (by omega), Nat.sub_add_cancel hlo] at same
    exact same
  · rw [bit _ _ hj, bit _ _ hj, h _ (by omega) (by omega)]

/-- Settles O35: both registers are cut at one place, each from its own word. -/
theorem fieldSeesExactlyItsOwnBits : Obligations.FieldSeesExactlyItsOwnBits := by
  intro s u t v r hr hs hu ht hv
  obtain ⟨t', ht', fieldsT⟩ := exec_decFhdr hs
  obtain ⟨v', hv', fieldsV⟩ := exec_decFhdr hu
  obtain rfl : t' = t := by rw [ht'] at ht; cases ht; rfl
  obtain rfl : v' = v := by rw [hv'] at hv; cases hv; rfl
  obtain ⟨-, hbytes, -⟩ := Reg.place_of_isFrame hr
  rw [fieldsT r hr, fieldsV r hr, Option.some_inj, State.fieldAt, State.fieldAt, hbytes]
  exact ofNat_div_two_pow_inj

/-- A header whose bytes are all the same, with all bits the same, has that bit all over in every field. -/
theorem getLsbD_fieldAt_of_forall {s : State} {base : Nat} {x : Byte} {c : Bool} {r : Reg} {j : Nat}
    (hget : ∀ i, i < 64 → s.mem.get (base + i) = x) (hx : ∀ b, b < 8 → x.getLsbD b = c) (hr : r.isFrame = true)
    (hj : j < r.width) : (s.fieldAt base r).getLsbD j = c := by
  obtain ⟨hbase, hbytes, hin⟩ := Reg.place_of_isFrame hr
  have hk := r.frameWord.isLt
  obtain ⟨-, bitOfByte⟩ := bitOfByteIsBitOfContainer
  rw [State.fieldAt, hbase, hbytes, BitVec.getLsbD_ofNat, decide_eq_true hj, Bool.true_and, Nat.testBit_div_two_pow,
    State.beAt, bitOfByte _ _ _ _ hk (by omega), hget _ (by omega), hx _ (Nat.mod_lt _ (by omega))]

/-- Settles O36: every bit of every field is the one bit that the header's bytes are made of. -/
theorem zeroAndOnesHeaders : Obligations.ZeroAndOnesHeaders := by
  intro s h
  obtain ⟨t, e, fields⟩ := exec_decFhdr h
  refine ⟨fun hget => ?_, fun hget => ?_⟩
  · have zero (r : Reg) (hr : r.isFrame = true) : t.f.get r = some 0 := by
      rw [fields r hr, Option.some_inj]
      refine BitVec.eq_of_getLsbD_eq fun j hj => ?_
      rw [getLsbD_fieldAt_of_forall (c := false) hget (by decide) hr hj]
      exact BitVec.getLsbD_zero.symm
    have sync : t.f.w5SyncSeq = some 0 := zero .w5SyncSeq rfl
    exact ⟨t, e, zero, by rw [sync]; rfl⟩
  · refine ⟨t, e, fun r hr => ?_⟩
    rw [fields r hr, Option.some_inj]
    refine BitVec.eq_of_getLsbD_eq fun j hj => ?_
    rw [getLsbD_fieldAt_of_forall (c := true) hget (by decide) hr hj, BitVec.getLsbD_allOnes, decide_eq_true hj]

end Sys2Proof.Machine

/-! ## Encoding a frame header (41_frame_header.md R156, R157)

A word is its fields in their places, and a field in its place is cut from the word again: so the records of 24 fields and
the lists of eight words determine each other, and a word determines its eight bytes. -/

namespace Sys2Proof.Machine

/-! ### A number and its big-endian bytes -/

@[simp] theorem length_beBytes (n v : Nat) : (beBytes n v).length = n := by
  induction n with
  | zero => rfl
  | succ n ih => rw [beBytes, List.length_cons, ih]

theorem be_beBytes (n v : Nat) : be (beBytes n v) = v % 256 ^ n := by
  induction n with
  | zero => rw [beBytes, be_nil, pow_zero, Nat.mod_one]
  | succ n ih =>
    rw [beBytes, be_cons, length_beBytes, ih, BitVec.toNat_ofNat, pow_succ 256 n, Nat.mod_mul, Nat.add_comm,
      Nat.mul_comm (256 ^ n)]

/-- Byte strings of one length with one value are equal. -/
theorem be_inj {xs ys : List Byte} (hlen : xs.length = ys.length) (h : be xs = be ys) : xs = ys := by
  induction xs generalizing ys with
  | nil => exact (List.eq_nil_of_length_eq_zero hlen.symm).symm
  | cons x xs ih =>
    cases ys with
    | nil => cases hlen
    | cons y ys =>
      have hlen' : xs.length = ys.length := Nat.succ.inj hlen
      have leading (b : Byte) {low : Nat} (hlow : low < 256 ^ ys.length) :
          (b.toNat * 256 ^ ys.length + low) / 256 ^ ys.length = b.toNat := by
        rw [Nat.add_comm, Nat.add_mul_div_right _ _ (by positivity), Nat.div_eq_of_lt hlow, Nat.zero_add]
      have head : x.toNat = y.toNat := by
        rw [be_cons, be_cons, hlen'] at h
        rw [← leading x (hlen' ▸ be_lt xs), h, leading y (be_lt ys)]
      rw [be_cons, be_cons, hlen', head, Nat.add_left_cancel_iff] at h
      rw [BitVec.eq_of_toNat_eq head, ih hlen' h]

theorem beBytes_be_bytes (m : Memory) (a n : Nat) : beBytes n (be (m.bytes a n)) = m.bytes a n := by
  have bound := be_lt (m.bytes a n)
  rw [Memory.length_bytes] at bound
  exact be_inj (by simp) (by rw [be_beBytes, Nat.mod_eq_of_lt bound])

/-- The eight bytes of a word, most significant first (R156). -/
theorem beBytes_word_inj {v w : FrameWord} (h : beBytes 8 v.toNat = beBytes 8 w.toNat) : v = w := by
  have value := congrArg be h
  rw [be_beBytes, be_beBytes] at value
  exact BitVec.eq_of_toNat_eq (by simpa [Nat.mod_eq_of_lt v.isLt, Nat.mod_eq_of_lt w.isLt] using value)

/-- As many words with the same bytes are the same words. -/
theorem flatMap_beBytes_inj {vs ws : List FrameWord} (hlen : vs.length = ws.length)
    (h : vs.flatMap (fun v => beBytes 8 v.toNat) = ws.flatMap fun v => beBytes 8 v.toNat) : vs = ws := by
  induction vs generalizing ws with
  | nil => exact (List.eq_nil_of_length_eq_zero hlen.symm).symm
  | cons v vs ih =>
    cases ws with
    | nil => cases hlen
    | cons w ws =>
      rw [List.flatMap_cons, List.flatMap_cons] at h
      obtain ⟨head, tail⟩ := List.append_inj h (by simp)
      rw [beBytes_word_inj head, ih (Nat.succ.inj hlen) tail]

theorem FrameHeader.length_words (h : FrameHeader) : h.words.length = 8 := rfl

theorem FrameHeader.words_eq_of_encode_eq {h k : FrameHeader} (e : h.encode = k.encode) : h.words = k.words :=
  flatMap_beBytes_inj (h.length_words.trans k.length_words.symm) e

/-- The words of a buffer, written one after another, are its bytes. -/
theorem flatMap_beBytes_ofFn (m : Memory) (a n : Nat) {w : Fin n → FrameWord}
    (h : ∀ k, (w k).toNat = be (m.bytes (a + 8 * k.val) 8)) :
    (List.ofFn w).flatMap (fun v => beBytes 8 v.toNat) = m.bytes a (8 * n) := by
  induction n generalizing a with
  | zero => rw [List.ofFn_zero]; rfl
  | succ n ih =>
    have rest (k : Fin n) : (w k.succ).toNat = be (m.bytes (a + 8 + 8 * k.val) 8) := by
      rw [h, Fin.val_succ, Nat.mul_succ, Nat.add_comm (8 * k.val), Nat.add_assoc]
    have first : (w 0).toNat = be (m.bytes a 8) := h 0
    rw [List.ofFn_succ, List.flatMap_cons, ih _ rest, first, beBytes_be_bytes, Nat.mul_succ, Nat.add_comm (8 * n),
      Memory.bytes_add]

/-! ### Fields in their places -/

/-- The bits of a word from `lo` on, the others 0. -/
def bitsFrom (lo : Nat) (v : FrameWord) : FrameWord := (v >>> lo) <<< lo

theorem getLsbD_bitsFrom (lo : Nat) (v : FrameWord) (j : Nat) :
    (bitsFrom lo v).getLsbD j = (decide (lo ≤ j) && v.getLsbD j) := by
  by_cases hj : j < 64
  · by_cases hlo : lo ≤ j
    · simp [bitsFrom, hj, hlo, Nat.not_lt.mpr hlo, Nat.add_sub_cancel' hlo]
    · simp [bitsFrom, hlo, Nat.lt_of_not_le hlo]
  · rw [BitVec.getLsbD_of_ge _ _ (by omega), BitVec.getLsbD_of_ge _ _ (by omega), Bool.and_false]

theorem bitsFrom_zero (v : FrameWord) : bitsFrom 0 v = v := by simp [bitsFrom]

theorem getLsbD_placed {n : Nat} (x : BitVec n) {lo j : Nat} (hj : j < 64) :
    (placed x lo).getLsbD j = (decide (lo ≤ j) && x.getLsbD (j - lo)) := by
  by_cases hlo : lo ≤ j
  · simp [placed, hj, hlo, Nat.not_lt.mpr hlo]
  · simp [placed, hlo, Nat.lt_of_not_le hlo]

/-- A field put back below the bits that stand already. -/
theorem bitsFrom_or_placed {hi lo w : Nat} (v : FrameWord) (h : hi = lo + w) :
    bitsFrom hi v ||| placed (v.extractLsb' lo w) lo = bitsFrom lo v := by
  refine BitVec.eq_of_getLsbD_eq fun j hj => ?_
  rw [BitVec.getLsbD_or, getLsbD_bitsFrom, getLsbD_bitsFrom, getLsbD_placed _ hj, BitVec.getLsbD_extractLsb']
  by_cases hlo : lo ≤ j
  · rw [Nat.add_sub_cancel' hlo]
    by_cases hhi : hi ≤ j
    · simp [hhi, hlo]
    · have : j - lo < w := by omega
      simp [hhi, hlo, this]
  · have : ¬ hi ≤ j := by omega
    simp [hlo, this]

/-- The field that ends at the word's highest bit. -/
theorem placed_top {lo w : Nat} (v : FrameWord) (h : 64 = lo + w) : placed (v.extractLsb' lo w) lo = bitsFrom lo v := by
  have none : bitsFrom 64 v = 0#64 := by simp [bitsFrom]
  rw [← bitsFrom_or_placed v h, none, BitVec.zero_or]

/-- Cutting at a field's place gives the field back. -/
theorem extractLsb'_placed_same {w lo : Nat} (x : BitVec w) (h : lo + w ≤ 64) : (placed x lo).extractLsb' lo w = x := by
  refine BitVec.eq_of_getLsbD_eq fun j hj => ?_
  rw [BitVec.getLsbD_extractLsb', getLsbD_placed _ (by omega)]
  simp [hj]

/-- Cutting at another place gives nothing of it. -/
theorem extractLsb'_placed_of_disjoint {n lo lo' w : Nat} (x : BitVec n) (hin : lo + w ≤ 64)
    (h : lo' + n ≤ lo ∨ lo + w ≤ lo') : (placed x lo').extractLsb' lo w = 0#w := by
  refine BitVec.eq_of_getLsbD_eq fun j hj => ?_
  rw [BitVec.getLsbD_extractLsb', getLsbD_placed _ (by omega)]
  rcases h with h | h
  · have : x.getLsbD (lo + j - lo') = false := BitVec.getLsbD_of_ge _ _ (by omega)
    simp [this]
  · have : ¬ lo' ≤ lo + j := by omega
    simp [this]

theorem Reg.cut_eq_extractLsb' (r : Reg) (v : FrameWord) : r.cut v = v.extractLsb' r.place.2.2 r.width := by
  rw [Reg.cut, BitVec.extractLsb', Nat.shiftRight_eq_div_pow]

/-! ### The record of the fields -/

/-- The frame header with the given field values. -/
def FrameHeader.ofFields (v : (r : Reg) → BitVec r.width) : FrameHeader where
  w0 := ⟨v .w0Invalid, v .w0Complex, v .w0EpochStartSec, v .w0FrameNumber⟩
  w1 := ⟨v .w1Version, v .w1BitsPerSample, v .w1ArrayLength, v .w1RefEpochPeriod, v .w1SampleRepresentation,
    v .w1Unassigned, v .w1StationId⟩
  w2 := ⟨v .w2BlockLength, v .w2ChannelsPerThread, v .w2FreqGroup, v .w2BeamId⟩
  w3 := ⟨v .w3Reserved16, v .w3Period, v .w3Reserved32⟩
  w4 := ⟨v .w4IntervalsPerPeriod⟩
  w5 := ⟨v .w5SyncSeq, v .w5Reserved32⟩
  w6 := ⟨v .w6ExtDataVersion, v .w6ExtUserData⟩
  w7 := ⟨v .w7ExtUserData⟩

theorem RegFile.frameHeader_eq_ofFields {f : RegFile} {v : (r : Reg) → BitVec r.width}
    (h : ∀ r, r.isFrame = true → f.get r = some (v r)) : f.frameHeader = some (FrameHeader.ofFields v) := by
  rw [RegFile.frameHeader, show f.w0Invalid = _ from h .w0Invalid rfl, show f.w0Complex = _ from h .w0Complex rfl,
    show f.w0EpochStartSec = _ from h .w0EpochStartSec rfl, show f.w0FrameNumber = _ from h .w0FrameNumber rfl,
    show f.w1Version = _ from h .w1Version rfl, show f.w1BitsPerSample = _ from h .w1BitsPerSample rfl,
    show f.w1ArrayLength = _ from h .w1ArrayLength rfl, show f.w1RefEpochPeriod = _ from h .w1RefEpochPeriod rfl,
    show f.w1SampleRepresentation = _ from h .w1SampleRepresentation rfl,
    show f.w1Unassigned = _ from h .w1Unassigned rfl, show f.w1StationId = _ from h .w1StationId rfl,
    show f.w2BlockLength = _ from h .w2BlockLength rfl,
    show f.w2ChannelsPerThread = _ from h .w2ChannelsPerThread rfl,
    show f.w2FreqGroup = _ from h .w2FreqGroup rfl, show f.w2BeamId = _ from h .w2BeamId rfl,
    show f.w3Reserved16 = _ from h .w3Reserved16 rfl, show f.w3Period = _ from h .w3Period rfl,
    show f.w3Reserved32 = _ from h .w3Reserved32 rfl,
    show f.w4IntervalsPerPeriod = _ from h .w4IntervalsPerPeriod rfl,
    show f.w5SyncSeq = _ from h .w5SyncSeq rfl, show f.w5Reserved32 = _ from h .w5Reserved32 rfl,
    show f.w6ExtDataVersion = _ from h .w6ExtDataVersion rfl, show f.w6ExtUserData = _ from h .w6ExtUserData rfl,
    show f.w7ExtUserData = _ from h .w7ExtUserData rfl]
  rfl

/-- The frame header cut from eight words. -/
def FrameHeader.ofWords (w : Fin 8 → FrameWord) : FrameHeader := .ofFields fun r => r.cut (w r.frameWord)

/-- Every bit of a word belongs to one of its fields (R81): the fields in their places are the word. -/
theorem FrameHeader.words_ofWords (w : Fin 8 → FrameWord) : (FrameHeader.ofWords w).words = List.ofFn w := by
  simp (disch := decide) only [FrameHeader.words, FrameHeader.ofWords, FrameHeader.ofFields, Reg.cut_eq_extractLsb',
    Reg.frameWord, Reg.place, Nat.reduceDiv, Fin.reduceOfNat, placed_top, bitsFrom_or_placed, bitsFrom_zero]
  rfl

/-- No two fields of a word share a bit: each is cut from the word unchanged. -/
theorem FrameHeader.ofWords_eq {h : FrameHeader} {w : Fin 8 → FrameWord} (e : h.words = List.ofFn w) :
    FrameHeader.ofWords w = h := by
  have eight : List.ofFn w = [w 0, w 1, w 2, w 3, w 4, w 5, w 6, w 7] := rfl
  rw [eight] at e
  simp only [FrameHeader.words, List.cons.injEq, and_true] at e
  obtain ⟨w0, w1, w2, w3, w4, w5, w6, w7⟩ := e
  simp (disch := decide) only [FrameHeader.ofWords, FrameHeader.ofFields, Reg.cut_eq_extractLsb', Reg.frameWord,
    Reg.place, Nat.reduceDiv, Fin.reduceOfNat, ← w0, ← w1, ← w2, ← w3, ← w4, ← w5, ← w6, ← w7, BitVec.extractLsb'_or,
    extractLsb'_placed_same, extractLsb'_placed_of_disjoint, BitVec.or_zero, BitVec.zero_or]

/-! ### Decoding and encoding -/

/-- The stage leaves the frame header that is cut from the eight words at the cursor. -/
theorem exec_decFhdr_frameHeader {s : State} (h : 64 ≤ s.len - s.off) :
    ∃ t, exec .decFhdr s = .next t ∧ t.f.frameHeader = some (.ofWords (s.headerWord s.off)) := by
  obtain ⟨t, e, fields⟩ := exec_decFhdr h
  refine ⟨t, e, RegFile.frameHeader_eq_ofFields fun r hr => ?_⟩
  rw [fields r hr, State.cut_headerWord s s.off hr]

theorem encode_ofWords_headerWord (s : State) (base : Nat) :
    (FrameHeader.ofWords (s.headerWord base)).encode = s.mem.bytes base 64 := by
  rw [FrameHeader.encode, FrameHeader.words_ofWords]
  exact flatMap_beBytes_ofFn s.mem base 8 (s.toNat_headerWord base)

/-- Settles O32: the words are made of their fields, and the bytes of the words. -/
theorem decodedHeaderEncodesToItsBytes : Obligations.DecodedHeaderEncodesToItsBytes := by
  intro s h
  obtain ⟨t, e, header⟩ := exec_decFhdr_frameHeader h
  exact ⟨t, _, e, header, encode_ofWords_headerWord s s.off⟩

/-- Settles O33: the decoded header encodes to the same bytes, so to the same words, and these determine the fields. -/
theorem encodedHeaderDecodesToItsFields : Obligations.EncodedHeaderDecodesToItsFields := by
  intro s h hlen hbytes
  obtain ⟨t, e, header⟩ := exec_decFhdr_frameHeader hlen
  have words : h.words = List.ofFn (s.headerWord s.off) := by
    rw [← FrameHeader.words_ofWords]
    exact FrameHeader.words_eq_of_encode_eq (hbytes.symm.trans (encode_ofWords_headerWord s s.off).symm)
  exact ⟨t, e, by rw [header, FrameHeader.ofWords_eq words]⟩

end Sys2Proof.Machine

/-! ## The fields of the encapsulation (42_encapsulation.md R172 to R192)

A field is read whole from the cursor, or cut from the byte or the 16-bit value that was read just before it. -/

namespace Sys2Proof.Machine

theorem State.beAt_lt (s : State) (a n : Nat) : s.beAt a n < 256 ^ n := by
  have bound := be_lt (s.mem.bytes a n)
  rwa [Memory.length_bytes] at bound

/-- `EXT` of a field inside its container, as the container tables cut it (30_encoding.md R94). -/
theorem ext_eq_ofNat {n : Nat} (v : BitVec n) {hi lo : Nat} (h : hi < n) (hl : lo ≤ hi) :
    ext v hi lo = BitVec.ofNat (hi - lo + 1) (v.toNat / 2 ^ lo) :=
  BitVec.eq_of_toNat_eq (by rw [toNat_ext v h hl, BitVec.toNat_ofNat])

/-- The value of `n` bytes has `8 * n` bits: none is lost before the register takes its own width. -/
theorem State.setWidth_beBits (s : State) (w n : Nat) :
    (beBits (8 * n) (s.mem.bytes s.off n)).setWidth w = BitVec.ofNat w (s.beAt s.off n) := by
  have bound : s.beAt s.off n < 2 ^ (8 * n) := by rw [pow_mul]; exact s.beAt_lt s.off n
  refine BitVec.eq_of_toNat_eq ?_
  rw [BitVec.toNat_setWidth, BitVec.toNat_ofNat, beBits, BitVec.toNat_ofNat]
  exact congrArg (· % 2 ^ w) (Nat.mod_eq_of_lt bound)

/-- A byte-run field takes the value of its bytes (20_memory.md R54). -/
theorem reads_run (r : Reg) (n : Nat) : Reads n (fun s => s.readRun r n)
    fun s => (s.afterRead n).putReg r (some (BitVec.ofNat r.width (s.beAt s.off n))) :=
  reads_readRun r n

/-- An integer field takes the value of its bytes (40_cursor.md R121). -/
theorem reads_field (r : Reg) (n : Nat) : Reads n (fun s => s.readField r n)
    fun s => (s.afterReadBe n).putReg r (some (BitVec.ofNat r.width (s.beAt s.off n))) :=
  ⟨fun s h => by rw [State.readField_ok r h, s.setWidth_beBits], fun _ h => State.readField_error r h⟩

section
variable {i : Instr} {r : Reg} {n : Nat} {s : State}

theorem exec_run (ha : attemptOf i = fun s => s.readRun r n) (h : n ≤ s.len - s.off) :
    exec i s = .next ((s.afterRead n).putReg r (some (BitVec.ofNat r.width (s.beAt s.off n)))) := by
  have reads := reads_run r n
  rw [← ha] at reads
  exact reads.exec_of_le h

theorem exec_field (ha : attemptOf i = fun s => s.readField r n) (h : n ≤ s.len - s.off) :
    exec i s = .next ((s.afterReadBe n).putReg r (some (BitVec.ofNat r.width (s.beAt s.off n)))) := by
  have reads := reads_field r n
  rw [← ha] at reads
  exact reads.exec_of_le h

/-- A field cut from a latch reads nothing and writes its register. -/
theorem exec_cut {v : State → Option (BitVec r.width)} (ha : attemptOf i = fun s => .ok (s.putReg r (v s)))
    {x : Option (BitVec r.width)} (hx : v s = x) : exec i s = .next (s.putReg r x) := by
  rw [exec_eq_settle, ha, ← hx, settle_ok]

end

/-- Settles O16. -/
theorem ethernetAndUdpFieldsAreRead : Obligations.EthernetAndUdpFieldsAreRead := by
  intro s
  exact ⟨exec_run rfl, exec_run rfl, exec_field rfl, exec_field rfl, exec_field rfl, exec_field rfl, exec_field rfl⟩

/-- Settles O17. -/
theorem ipv4FieldsAreRead : Obligations.Ipv4FieldsAreRead := by
  intro s
  exact ⟨exec_field rfl, exec_field rfl, exec_field rfl, exec_field rfl, exec_field rfl, exec_field rfl, exec_run rfl,
    exec_run rfl⟩

section
variable {s : State}

/-- What is cut from the byte last returned (R176, R177). -/
theorem State.cut_operandB {v hi lo : Nat} (h : s.rdbe = some ⟨1, v⟩) (hv : v < 256 ^ 1) (hhi : hi < 8) (hlo : lo ≤ hi) :
    (s.operandB.map fun b => ext b hi lo) = some (BitVec.ofNat (hi - lo + 1) (v / 2 ^ lo)) := by
  have operand : s.operandB = some (BitVec.ofNat 8 v) := by rw [State.operandB, h]; rfl
  rw [operand, Option.map_some, ext_eq_ofNat _ hhi hlo, BitVec.toNat_ofNat]
  exact congrArg (fun x => some (BitVec.ofNat _ (x / 2 ^ lo))) (Nat.mod_eq_of_lt hv)

/-- What is cut from the 16-bit value last returned (R181, R182). -/
theorem State.cut_operandG {v hi lo : Nat} (h : s.rdbe = some ⟨2, v⟩) (hv : v < 256 ^ 2) (hhi : hi < 16) (hlo : lo ≤ hi) :
    (s.operandG.map fun g => ext g hi lo) = some (BitVec.ofNat (hi - lo + 1) (v / 2 ^ lo)) := by
  have operand : s.operandG = some (BitVec.ofNat 16 v) := by rw [State.operandG, h]; rfl
  rw [operand, Option.map_some, ext_eq_ofNat _ hhi hlo, BitVec.toNat_ofNat]
  exact congrArg (fun x => some (BitVec.ofNat _ (x / 2 ^ lo))) (Nat.mod_eq_of_lt hv)

theorem State.operandB_eq_none (h : ∀ v, s.rdbe ≠ some ⟨1, v⟩) : s.operandB = none := by
  unfold State.operandB
  split
  case h_1 v hv => exact if_neg fun h1 => h v.value (by rw [hv, ← h1])
  case h_2 => rfl

theorem State.operandG_eq_none (h : ∀ v, s.rdbe ≠ some ⟨2, v⟩) : s.operandG = none := by
  unfold State.operandG
  split
  case h_1 v hv => exact if_neg fun h2 => h v.value (by rw [hv, ← h2])
  case h_2 => rfl

end

/-- Settles O18: the operand is the value last returned if that was of its width, and is absent otherwise. -/
theorem ipv4SharedFieldsAreCut : Obligations.Ipv4SharedFieldsAreCut := by
  intro s
  refine ⟨fun b h => ?_, fun g h => ?_, fun h => ?_, fun h => ?_⟩
  · exact ⟨exec_cut rfl (State.cut_operandB h b.isLt (by decide) (by decide)),
      exec_cut rfl (by rw [State.cut_operandB h b.isLt (by decide) (by decide), pow_zero, Nat.div_one])⟩
  · exact ⟨exec_cut rfl (State.cut_operandG h g.isLt (by decide) (by decide)),
      exec_cut rfl (by rw [State.cut_operandG h g.isLt (by decide) (by decide), pow_zero, Nat.div_one])⟩
  · have operand := State.operandB_eq_none h
    exact ⟨exec_cut rfl (by rw [operand]; rfl), exec_cut rfl (by rw [operand]; rfl)⟩
  · have operand := State.operandG_eq_none h
    exact ⟨exec_cut rfl (by rw [operand]; rfl), exec_cut rfl (by rw [operand]; rfl)⟩

end Sys2Proof.Machine

/-! ## Where the encapsulation fields lie in their headers (30_encoding.md R90 to R92)

The container of a field is its whole header; the operations read the header in parts. -/

namespace Sys2Proof.Machine

/-- The field is the bits from `lo` on of the `n` bytes that stand `k` bytes into its header. -/
abbrev Reg.LiesIn (r : Reg) (k n lo : Nat) : Prop :=
  r.place.1 = 0 ∧ k + n ≤ r.place.2.1 ∧ r.place.2.2 = 8 * (r.place.2.1 - k - n) + lo ∧ lo + r.width ≤ 8 * n

/-- The field is the `n` bytes that stand `k` bytes into its header. -/
abbrev Reg.IsRun (r : Reg) (k n : Nat) : Prop := r.LiesIn k n 0 ∧ r.width = 8 * n

section
variable (s : State) (base : Nat) {q r : Reg} {k n lo : Nat}

/-- The bits of a header are those of its parts. -/
theorem State.fieldAt_of_liesIn (h : r.LiesIn k n lo) :
    s.fieldAt base r = BitVec.ofNat r.width (s.beAt (base + k) n / 2 ^ lo) := by
  obtain ⟨hbase, hin, hlow, hwidth⟩ := h
  have part : s.beAt (base + k) n = s.beAt base r.place.2.1 / 2 ^ (8 * (r.place.2.1 - k - n)) % 2 ^ (8 * n) := by
    rw [pow_mul, pow_mul]
    exact be_bytes_slice s.mem base hin
  refine BitVec.eq_of_getLsbD_eq fun j hj => ?_
  have inPart : j + lo < 8 * n := by omega
  rw [State.fieldAt, hbase, hlow, part, Nat.add_zero, BitVec.getLsbD_ofNat, BitVec.getLsbD_ofNat,
    Nat.testBit_div_two_pow, Nat.testBit_div_two_pow, Nat.testBit_mod_two_pow, Nat.testBit_div_two_pow,
    decide_eq_true inPart, Bool.true_and, Nat.add_assoc, Nat.add_comm lo]

theorem State.fieldAt_of_isRun (h : r.IsRun k n) : s.fieldAt base r = BitVec.ofNat r.width (s.beAt (base + k) n) := by
  rw [s.fieldAt_of_liesIn base h.1, pow_zero, Nat.div_one]

theorem State.toNat_fieldAt_of_isRun (h : r.IsRun k n) : (s.fieldAt base r).toNat = s.beAt (base + k) n := by
  rw [s.fieldAt_of_isRun base h, BitVec.toNat_ofNat, h.2, pow_mul]
  exact Nat.mod_eq_of_lt (s.beAt_lt _ n)

/-- Two fields that share their bytes, side by side, make up the value of the bytes (30_encoding.md R95). -/
theorem State.toNat_fieldAt_shared (hq : q.LiesIn k n lo) (hr : r.LiesIn k n 0) (hlo : r.width = lo)
    (hn : q.width + lo = 8 * n) :
    (s.fieldAt base q).toNat * 2 ^ lo + (s.fieldAt base r).toNat = s.beAt (base + k) n := by
  have high : s.beAt (base + k) n / 2 ^ lo < 2 ^ q.width := by
    rw [Nat.div_lt_iff_lt_mul (by positivity), ← pow_add, hn, pow_mul]
    exact s.beAt_lt _ n
  rw [s.fieldAt_of_liesIn base hq, s.fieldAt_of_liesIn base hr, BitVec.toNat_ofNat, BitVec.toNat_ofNat, pow_zero,
    Nat.div_one, hlo, Nat.mod_eq_of_lt high]
  exact Nat.div_add_mod' _ _

end

end Sys2Proof.Machine

/-! ## What the encapsulation stages leave (42_encapsulation.md R170, R171, R175, R188) -/

namespace Sys2Proof.Machine

/-- From `P`, the operations `is` lead to `Q`, give every register they write its value of `v`, and leave the others. -/
def Decodes (v : (q : Reg) → BitVec q.width) (P : State → Prop) (is : List Instr) (Q : State → Prop) : Prop :=
  ∀ u t, P u → runAll is u = .ok t →
    Q t ∧ ∀ q, t.f.get q = if is.any (Instr.writes q) then some (v q) else u.f.get q

/-- In the buffer of `s`, the cursor is at byte `k` from `base`. -/
def AtByte (s : State) (base k : Nat) (u : State) : Prop := u.mem = s.mem ∧ u.off = base + k

/-- The `n` bytes at `k` have just been read, and returned as a value. -/
def Returned (s : State) (base k n : Nat) (u : State) : Prop :=
  AtByte s base (k + n) u ∧ u.rdbe = some ⟨n, s.beAt (base + k) n⟩

section
variable {v v' : (q : Reg) → BitVec q.width} {P Q R : State → Prop} {is js : List Instr} {i : Instr} {r : Reg}

theorem Decodes.append (hi : Decodes v P is Q) (hj : Decodes v Q js R) : Decodes v P (is ++ js) R := by
  intro u t hp e
  rw [runAll_append] at e
  obtain ⟨m, hm, ht⟩ := ok_bind_iff.mp e
  obtain ⟨hq, first⟩ := hi u m hp hm
  obtain ⟨hr, second⟩ := hj m t hq ht
  refine ⟨hr, fun q => ?_⟩
  rw [second, first, List.any_append]
  cases js.any (Instr.writes q)
  · rw [Bool.or_false]; rfl
  · rw [Bool.or_true]; rfl

theorem Decodes.cons (hi : Decodes v P [i] Q) (hj : Decodes v Q js R) : Decodes v P (i :: js) R := hi.append hj

theorem Decodes.weaken (h : Decodes v P is Q) (hQ : ∀ t, Q t → R t) : Decodes v P is R := by
  intro u t hp e
  obtain ⟨hq, regs⟩ := h u t hp e
  exact ⟨hQ t hq, regs⟩

/-- Only the values of the registers written matter. -/
theorem Decodes.congr (h : Decodes v P [i] Q) (hv : ∀ q, i.writes q = true → v q = v' q) : Decodes v' P [i] Q := by
  intro u t hp e
  obtain ⟨hq, regs⟩ := h u t hp e
  refine ⟨hq, fun q => ?_⟩
  rw [regs, List.any_cons, List.any_nil, Bool.or_false]
  split
  case isTrue hw => rw [hv q hw]
  case isFalse => rfl

/-- A stage decodes what its expansion decodes (30_encoding.md R103). -/
theorem Decodes.stage (hi : i ∈ stages) (h : Decodes v P i.expansion Q) : Decodes v P [i] Q := by
  intro u t hp e
  rw [runAll_singleton, attemptOf_stage hi] at e
  simpa [expansion_any_writes hi] using h u t hp e

/-- An operation that puts its target's value into the target, whatever else it does. -/
theorem Decodes.of_put (hi : i.target = some r)
    (h : ∀ u t, P u → attemptOf i u = .ok t → Q t ∧ t.f = u.f.put r (some (v r))) : Decodes v P [i] Q := by
  intro u t hp e
  rw [runAll_singleton] at e
  obtain ⟨hq, hf⟩ := h u t hp e
  refine ⟨hq, fun q => ?_⟩
  rw [hf, List.any_cons, List.any_nil, Bool.or_false, Instr.writes_of_target hi]
  by_cases hqr : q = r
  · subst hqr; simp
  · rw [RegFile.get_put_of_ne _ _ hqr, beq_false_of_ne hqr]; rfl

/-- A field cut from what `P` says was returned. -/
theorem Decodes.cut {x : State → Option (BitVec r.width)} (ha : attemptOf i = fun u => .ok (u.putReg r (x u)))
    (hi : i.target = some r) (hx : ∀ u, P u → x u = some (v r)) (hkeep : ∀ u, P u → P (u.putReg r (x u))) :
    Decodes v P [i] P :=
  Decodes.of_put hi fun u t hp e => by
    rw [ha] at e
    obtain rfl : u.putReg r (x u) = t := by cases e; rfl
    exact ⟨hkeep u hp, by rw [State.putReg_f, hx u hp]⟩

end

section
variable (s : State) (base : Nat) {i : Instr} {r : Reg} {k n lo : Nat}

theorem AtByte.beAt_off {u : State} (h : AtByte s base k u) (n : Nat) : u.beAt u.off n = s.beAt (base + k) n := by
  obtain ⟨hmem, hoff⟩ := h
  rw [State.beAt, hmem, hoff, State.beAt]

/-- The cursor past `n` more bytes. -/
theorem AtByte.next {u t : State} (h : AtByte s base k u) (hmem : t.mem = u.mem) (hoff : t.off = u.off + n) :
    AtByte s base (k + n) t := by
  obtain ⟨hu, ho⟩ := h
  exact ⟨hmem.trans hu, by rw [hoff, ho, Nat.add_assoc]⟩

theorem decodes_run (ha : attemptOf i = fun u => u.readRun r n) (hi : i.target = some r) (hr : r.IsRun k n) :
    Decodes (s.fieldAt base) (AtByte s base k) [i] (AtByte s base (k + n)) :=
  Decodes.of_put hi fun u t hu e => by
    rw [ha] at e
    obtain rfl := (reads_run r n).eq_of_ok e
    exact ⟨hu.next s base rfl rfl, by rw [s.fieldAt_of_isRun base hr, ← hu.beAt_off]; rfl⟩

theorem decodes_field (ha : attemptOf i = fun u => u.readField r n) (hi : i.target = some r) (hr : r.IsRun k n) :
    Decodes (s.fieldAt base) (AtByte s base k) [i] (AtByte s base (k + n)) :=
  Decodes.of_put hi fun u t hu e => by
    rw [ha] at e
    obtain rfl := (reads_field r n).eq_of_ok e
    exact ⟨hu.next s base rfl rfl, by rw [s.fieldAt_of_isRun base hr, ← hu.beAt_off]; rfl⟩

/-- A value read for the fields to be cut from it (R175). -/
theorem decodes_rdBe (v : (q : Reg) → BitVec q.width) (k n : Nat) :
    Decodes v (AtByte s base k) [.rdBe n] (Returned s base k n) := by
  intro u t hu e
  rw [runAll_singleton] at e
  obtain rfl := (reads_rdBe n).eq_of_ok e
  exact ⟨⟨hu.next s base rfl rfl, by rw [← hu.beAt_off]; rfl⟩, fun q => rfl⟩

/-- A field cut from the returned value is a part of the header it was read from. -/
theorem decodes_cut {x : State → Option (BitVec r.width)} (ha : attemptOf i = fun u => .ok (u.putReg r (x u)))
    (hi : i.target = some r) (hr : r.LiesIn k n lo)
    (hx : ∀ u v, u.rdbe = some ⟨n, v⟩ → v < 256 ^ n → x u = some (BitVec.ofNat r.width (v / 2 ^ lo))) :
    Decodes (s.fieldAt base) (Returned s base k n) [i] (Returned s base k n) :=
  Decodes.cut ha hi (fun u ⟨_, hu⟩ => by rw [hx u _ hu (s.beAt_lt _ n), s.fieldAt_of_liesIn base hr]) fun _ => id

/-- The Ethernet header (R171). -/
theorem decodes_decEth : Decodes (s.fieldAt base) (AtByte s base 0) [.decEth] (AtByte s base 14) :=
  Decodes.stage (by decide) <|
    (decodes_run s base rfl rfl (n := 6) (by decide)).cons <|
    (decodes_run s base rfl rfl (n := 6) (by decide)).cons <|
    decodes_field s base rfl rfl (n := 2) (by decide)

/-- The UDP header (R188). -/
theorem decodes_decUdp : Decodes (s.fieldAt base) (AtByte s base 0) [.decUdp] (AtByte s base 8) :=
  Decodes.stage (by decide) <|
    (decodes_field s base rfl rfl (n := 2) (by decide)).cons <|
    (decodes_field s base rfl rfl (n := 2) (by decide)).cons <|
    (decodes_field s base rfl rfl (n := 2) (by decide)).cons <|
    decodes_field s base rfl rfl (n := 2) (by decide)

/-- The version and the header length share byte 0 (R176, R177). -/
theorem decodes_byteB :
    Decodes (s.fieldAt base) (AtByte s base 0) [.rdBe 1, .ipVersion, .ipIhl] (AtByte s base 1) := by
  have cutB {hi lo : Nat} (hhi : hi < 8) (hlo : lo ≤ hi) (u : State) (v : Nat) (h : u.rdbe = some ⟨1, v⟩)
      (hv : v < 256 ^ 1) := State.cut_operandB h hv hhi hlo
  exact (decodes_rdBe s base _ 0 1).cons <|
    (decodes_cut s base rfl rfl (lo := 4) (by decide) (cutB (by decide) (by decide))).cons <|
    (decodes_cut s base rfl rfl (lo := 0) (by decide) (cutB (by decide) (by decide))).weaken fun _ h => h.1

/-- The flags and the fragment offset share bytes 6 and 7 (R181, R182). -/
theorem decodes_bytesG :
    Decodes (s.fieldAt base) (AtByte s base 6) [.rdBe 2, .ipFlags, .ipFrag] (AtByte s base 8) := by
  have cutG {hi lo : Nat} (hhi : hi < 16) (hlo : lo ≤ hi) (u : State) (v : Nat) (h : u.rdbe = some ⟨2, v⟩)
      (hv : v < 256 ^ 2) := State.cut_operandG h hv hhi hlo
  exact (decodes_rdBe s base _ 6 2).cons <|
    (decodes_cut s base rfl rfl (lo := 13) (by decide) (cutG (by decide) (by decide))).cons <|
    (decodes_cut s base rfl rfl (lo := 0) (by decide) (cutG (by decide) (by decide))).weaken fun _ h => h.1

/-- The IPv4 header (R175). -/
theorem decodes_decIpv4 : Decodes (s.fieldAt base) (AtByte s base 0) [.decIpv4] (AtByte s base 20) := by
  have between : Decodes (s.fieldAt base) (AtByte s base 1) [.ipTos, .ipTotlen, .ipId] (AtByte s base 6) :=
    (decodes_field s base rfl rfl (n := 1) (by decide)).cons <|
    (decodes_field s base rfl rfl (n := 2) (by decide)).cons <|
    decodes_field s base rfl rfl (n := 2) (by decide)
  have last : Decodes (s.fieldAt base) (AtByte s base 8) [.ipTtl, .ipProto, .ipCsum, .ipSrc, .ipDst]
      (AtByte s base 20) :=
    (decodes_field s base rfl rfl (n := 1) (by decide)).cons <|
    (decodes_field s base rfl rfl (n := 1) (by decide)).cons <|
    (decodes_field s base rfl rfl (n := 2) (by decide)).cons <|
    (decodes_run s base rfl rfl (n := 4) (by decide)).cons <|
    decodes_run s base rfl rfl (n := 4) (by decide)
  exact Decodes.stage (by decide)
    ((decodes_byteB s base).append (between.append ((decodes_bytesG s base).append last)))

/-- A stage writes the registers of the headers it reads, and of no other (R90 to R92). -/
theorem headerOffset_of_writes_decEth {r : Reg} (h : Instr.decEth.writes r = true) : r.headerOffset = 0 := by
  revert h; cases r <;> decide

theorem headerOffset_of_writes_decIpv4 {r : Reg} (h : Instr.decIpv4.writes r = true) : r.headerOffset = 14 := by
  revert h; cases r <;> decide

theorem headerOffset_of_writes_decUdp {r : Reg} (h : Instr.decUdp.writes r = true) : r.headerOffset = 34 := by
  revert h; cases r <;> decide

/-- The three headers, one after another (R170). -/
theorem decodes_decEncap :
    Decodes (fun r => s.fieldAt (base + r.headerOffset) r) (AtByte s base 0) [.decEncap] (AtByte s base 42) := by
  have eth := (decodes_decEth s base).congr (v' := fun r => s.fieldAt (base + r.headerOffset) r) fun r h => by
    rw [headerOffset_of_writes_decEth h, Nat.add_zero]
  have ip := (decodes_decIpv4 s (base + 14)).congr (v' := fun r => s.fieldAt (base + r.headerOffset) r) fun r h => by
    rw [headerOffset_of_writes_decIpv4 h]
  have udp := (decodes_decUdp s (base + 34)).congr (v' := fun r => s.fieldAt (base + r.headerOffset) r) fun r h => by
    rw [headerOffset_of_writes_decUdp h]
  exact Decodes.stage (by decide) (eth.cons (ip.cons udp))

end

/-- The stages of the encapsulation. -/
def encapStages : List Instr := [.decEth, .decIpv4, .decUdp, .decEncap]

/-- With its bytes a stage of the encapsulation goes on past them, and leaves all but its registers. -/
theorem attemptOf_encapStage {i : Instr} (hi : i ∈ encapStages) {s : State} (h : i.needs s.geom ≤ s.len - s.off) :
    ∃ t, attemptOf i s = .ok t ∧ t.off = s.off + i.needs s.geom ∧ s.SameElse t := by
  have atCursor : ∀ i ∈ encapStages, (i ≠ .curInit ∧ i ≠ .decodeBare ∧ i ≠ .decodeEncap) ∧
      i.writesWords = false ∧ i.writesSamples = false := by decide
  obtain ⟨⟨h1, h2, h3⟩, noWords, noSamples⟩ := atCursor i hi
  obtain ⟨t, e, hoff, hin, hstatus, hseq⟩ := (moves_attemptOf (g := s.geom) h1 h2 h3).ok s rfl h
  obtain ⟨-, words, samples⟩ := leaves_attemptOf h2 h3 s t e
  obtain ⟨hsamples, hcoord⟩ := samples noSamples
  exact ⟨t, e, hoff, hin, hstatus, hsamples, words noWords, hcoord, hseq⟩

/-- What a stage decodes from the cursor on is what running it leaves. -/
theorem exec_encapStage {i : Instr} (hi : i ∈ encapStages) {s : State} {v : (q : Reg) → BitVec q.width} {Q : State → Prop}
    (decodes : Decodes v (AtByte s s.off 0) [i] Q) (h : i.needs s.geom ≤ s.len - s.off) :
    ∃ t, exec i s = .next t ∧ t.off = s.off + i.needs s.geom ∧
      (∀ r, t.f.get r = if i.writes r then some (v r) else s.f.get r) ∧ s.SameElse t := by
  obtain ⟨t, e, hoff, same⟩ := attemptOf_encapStage hi h
  obtain ⟨-, regs⟩ := decodes s t ⟨rfl, rfl⟩ ((runAll_singleton i s).trans e)
  refine ⟨t, by rw [exec_eq_settle, e, settle_ok], hoff, fun r => ?_, same⟩
  simpa using regs r

/-- Settles O21: the registers by what each stage decodes, the rest as for any operation that has its bytes. -/
theorem encapsulationStagesDecodeTheirHeaders : Obligations.EncapsulationStagesDecodeTheirHeaders := by
  intro s i hi h
  rcases hi with rfl | rfl | rfl
  · exact exec_encapStage (by decide) (decodes_decEth s s.off) h
  · exact exec_encapStage (by decide) (decodes_decIpv4 s s.off) h
  · exact exec_encapStage (by decide) (decodes_decUdp s s.off) h

/-- Settles O22, as O21, for the three headers one after another. -/
theorem encapsulationDecodesThreeHeaders : Obligations.EncapsulationDecodesThreeHeaders := by
  intro s h
  exact exec_encapStage (i := .decEncap) (by decide) (decodes_decEncap s s.off) h

end Sys2Proof.Machine

/-! ## Encoding the encapsulation (42_encapsulation.md R195)

The 42 bytes are the big-endian values of 17 runs of bytes, two of which hold two fields each. -/

namespace Sys2Proof.Machine

/-- The encapsulation headers with the given field values. -/
def EncapHeaders.ofFields (v : (r : Reg) → BitVec r.width) : EncapHeaders where
  eth := ⟨v .ethDst, v .ethSrc, v .ethLen⟩
  ip := ⟨v .ipVersion, v .ipIhl, v .ipTos, v .ipTotalLength, v .ipIdentification, v .ipFlags, v .ipFragOffset, v .ipTtl,
    v .ipProtocol, v .ipChecksum, v .ipSrc, v .ipDst⟩
  udp := ⟨v .udpSrcPort, v .udpDstPort, v .udpLength, v .udpChecksum⟩

theorem RegFile.encapHeaders_eq_ofFields {f : RegFile} {v : (r : Reg) → BitVec r.width}
    (h : ∀ r, r.isEncap = true → f.get r = some (v r)) : f.encapHeaders = some (EncapHeaders.ofFields v) := by
  rw [RegFile.encapHeaders, show f.ethDst = _ from h .ethDst rfl, show f.ethSrc = _ from h .ethSrc rfl,
    show f.ethLen = _ from h .ethLen rfl, show f.ipVersion = _ from h .ipVersion rfl,
    show f.ipIhl = _ from h .ipIhl rfl, show f.ipTos = _ from h .ipTos rfl,
    show f.ipTotalLength = _ from h .ipTotalLength rfl, show f.ipIdentification = _ from h .ipIdentification rfl,
    show f.ipFlags = _ from h .ipFlags rfl, show f.ipFragOffset = _ from h .ipFragOffset rfl,
    show f.ipTtl = _ from h .ipTtl rfl, show f.ipProtocol = _ from h .ipProtocol rfl,
    show f.ipChecksum = _ from h .ipChecksum rfl, show f.ipSrc = _ from h .ipSrc rfl,
    show f.ipDst = _ from h .ipDst rfl, show f.udpSrcPort = _ from h .udpSrcPort rfl,
    show f.udpDstPort = _ from h .udpDstPort rfl, show f.udpLength = _ from h .udpLength rfl,
    show f.udpChecksum = _ from h .udpChecksum rfl]
  rfl

/-- The runs of bytes of the three headers in their order: how many bytes, and their value. -/
def EncapHeaders.runs (h : EncapHeaders) : List (Nat × Nat) :=
  [(6, h.eth.dst.toNat), (6, h.eth.src.toNat), (2, h.eth.len.toNat),
    (1, h.ip.version.toNat * 2 ^ 4 + h.ip.ihl.toNat), (1, h.ip.tos.toNat), (2, h.ip.totalLength.toNat),
    (2, h.ip.identification.toNat), (2, h.ip.flags.toNat * 2 ^ 13 + h.ip.fragOffset.toNat), (1, h.ip.ttl.toNat),
    (1, h.ip.protocol.toNat), (2, h.ip.checksum.toNat), (4, h.ip.src.toNat), (4, h.ip.dst.toNat),
    (2, h.udp.srcPort.toNat), (2, h.udp.dstPort.toNat), (2, h.udp.length.toNat), (2, h.udp.checksum.toNat)]

/-- How long the runs are does not depend on the headers: 42 bytes together. -/
theorem EncapHeaders.map_fst_runs (h : EncapHeaders) :
    h.runs.map Prod.fst = [6, 6, 2, 1, 1, 2, 2, 2, 1, 1, 2, 4, 4, 2, 2, 2, 2] := by
  simp only [EncapHeaders.runs, List.map_cons, List.map_nil]

/-- Runs of bytes written one after another. -/
def runBytes (ps : List (Nat × Nat)) : List Byte := ps.flatMap fun p => beBytes p.1 p.2

theorem EncapHeaders.encode_eq_runBytes (h : EncapHeaders) : h.encode = runBytes h.runs := by
  simp [EncapHeaders.encode, EncapHeaders.runs, runBytes]

/-- Each run is the value of the bytes where it stands, the first at `a`. -/
def RunsAt (m : Memory) : Nat → List (Nat × Nat) → Prop
  | _, [] => True
  | a, p :: ps => be (m.bytes a p.1) = p.2 ∧ RunsAt m (a + p.1) ps

/-- The runs that a buffer holds, written one after another, are its bytes. -/
theorem runBytes_of_runsAt {m : Memory} {a : Nat} {ps : List (Nat × Nat)} (h : RunsAt m a ps) :
    runBytes ps = m.bytes a (ps.map Prod.fst).sum := by
  induction ps generalizing a with
  | nil => rfl
  | cons p ps ih =>
    obtain ⟨head, tail⟩ := h
    rw [List.map_cons, List.sum_cons, Memory.bytes_add, ← ih tail, ← beBytes_be_bytes m a p.1, head]
    rfl

/-- Runs of the same lengths with the same bytes are the same, if every value fits its run. -/
theorem runBytes_inj {ps qs : List (Nat × Nat)} (hlen : ps.map Prod.fst = qs.map Prod.fst)
    (hp : ∀ p ∈ ps, p.2 < 256 ^ p.1) (hq : ∀ q ∈ qs, q.2 < 256 ^ q.1) (h : runBytes ps = runBytes qs) : ps = qs := by
  induction ps generalizing qs with
  | nil => exact (List.map_eq_nil_iff.mp hlen.symm).symm
  | cons p ps ih =>
    cases qs with
    | nil => cases hlen
    | cons q qs =>
      rw [List.forall_mem_cons] at hp hq
      rw [List.map_cons, List.map_cons, List.cons.injEq] at hlen
      obtain ⟨width, widths⟩ := hlen
      obtain ⟨head, tail⟩ := List.append_inj h (by simp [width])
      have value := congrArg be head
      rw [be_beBytes, be_beBytes, Nat.mod_eq_of_lt hp.1, Nat.mod_eq_of_lt hq.1] at value
      rw [Prod.ext width value, ih widths hp.2 hq.2 tail]

/-- Two fields side by side fit the run they share (30_encoding.md R95). -/
theorem shared_lt {n k : Nat} (x : BitVec n) (y : BitVec k) : x.toNat * 2 ^ k + y.toNat < 2 ^ (n + k) := by
  have hx := x.isLt
  have hy := y.isLt
  rw [pow_add]
  nlinarith

theorem shared_inj {n k : Nat} {x x' : BitVec n} {y y' : BitVec k}
    (h : x.toNat * 2 ^ k + y.toNat = x'.toNat * 2 ^ k + y'.toNat) : x = x' ∧ y = y' := by
  have low (x : BitVec n) (y : BitVec k) : (x.toNat * 2 ^ k + y.toNat) % 2 ^ k = y.toNat := by
    rw [Nat.mul_add_mod', Nat.mod_eq_of_lt y.isLt]
  have hy : y.toNat = y'.toNat := by rw [← low x y, h, low]
  rw [hy, Nat.add_right_cancel_iff] at h
  exact ⟨BitVec.eq_of_toNat_eq (Nat.eq_of_mul_eq_mul_right (by positivity) h), BitVec.eq_of_toNat_eq hy⟩

theorem EncapHeaders.lt_of_mem_runs (h : EncapHeaders) : ∀ p ∈ h.runs, p.2 < 256 ^ p.1 := by
  simp only [EncapHeaders.runs, List.forall_mem_cons, List.not_mem_nil, false_implies, implies_true, and_true]
  exact ⟨h.eth.dst.isLt, h.eth.src.isLt, h.eth.len.isLt, shared_lt h.ip.version h.ip.ihl, h.ip.tos.isLt,
    h.ip.totalLength.isLt, h.ip.identification.isLt, shared_lt h.ip.flags h.ip.fragOffset, h.ip.ttl.isLt,
    h.ip.protocol.isLt, h.ip.checksum.isLt, h.ip.src.isLt, h.ip.dst.isLt, h.udp.srcPort.isLt, h.udp.dstPort.isLt,
    h.udp.length.isLt, h.udp.checksum.isLt⟩

theorem EncapHeaders.runs_inj {h k : EncapHeaders} (e : h.runs = k.runs) : h = k := by
  simp only [EncapHeaders.runs, List.cons.injEq, Prod.mk.injEq, true_and, and_true, BitVec.toNat_inj] at e
  obtain ⟨dst, src, len, byteB, tos, totalLength, identification, bytesG, ttl, protocol, checksum, ipSrc, ipDst, srcPort,
    dstPort, length, udpChecksum⟩ := e
  obtain ⟨version, ihl⟩ := shared_inj byteB
  obtain ⟨flags, fragOffset⟩ := shared_inj bytesG
  obtain ⟨⟨⟩, ⟨⟩, ⟨⟩⟩ := h
  obtain ⟨⟨⟩, ⟨⟩, ⟨⟩⟩ := k
  simp_all only

/-- The bytes determine the field values. -/
theorem EncapHeaders.encode_inj {h k : EncapHeaders} (e : h.encode = k.encode) : h = k := by
  rw [EncapHeaders.encode_eq_runBytes, EncapHeaders.encode_eq_runBytes] at e
  exact EncapHeaders.runs_inj (runBytes_inj (h.map_fst_runs.trans k.map_fst_runs.symm) h.lt_of_mem_runs k.lt_of_mem_runs e)

/-- The encapsulation headers that the layout puts at `base` (20_memory.md R60). -/
def State.encapAt (s : State) (base : Nat) : EncapHeaders := .ofFields fun r => s.fieldAt (base + r.headerOffset) r

theorem runsAt_encapAt (s : State) (base : Nat) : RunsAt s.mem base (s.encapAt base).runs := by
  have run (r : Reg) {k n : Nat} (hr : r.IsRun k n) (a : Nat) :
      be (s.mem.bytes (a + k) n) = (s.fieldAt a r).toNat := (s.toNat_fieldAt_of_isRun a hr).symm
  have byteB := s.toNat_fieldAt_shared (base + 14) (q := .ipVersion) (r := .ipIhl) (k := 0) (n := 1) (lo := 4)
    (by decide) (by decide) rfl rfl
  have bytesG := s.toNat_fieldAt_shared (base + 14) (q := .ipFlags) (r := .ipFragOffset) (k := 6) (n := 2) (lo := 13)
    (by decide) (by decide) rfl rfl
  exact ⟨run .ethDst (k := 0) (n := 6) (by decide) base, run .ethSrc (k := 6) (n := 6) (by decide) base,
    run .ethLen (k := 12) (n := 2) (by decide) base, byteB.symm,
    run .ipTos (k := 1) (n := 1) (by decide) (base + 14), run .ipTotalLength (k := 2) (n := 2) (by decide) (base + 14),
    run .ipIdentification (k := 4) (n := 2) (by decide) (base + 14), bytesG.symm,
    run .ipTtl (k := 8) (n := 1) (by decide) (base + 14), run .ipProtocol (k := 9) (n := 1) (by decide) (base + 14),
    run .ipChecksum (k := 10) (n := 2) (by decide) (base + 14), run .ipSrc (k := 12) (n := 4) (by decide) (base + 14),
    run .ipDst (k := 16) (n := 4) (by decide) (base + 14), run .udpSrcPort (k := 0) (n := 2) (by decide) (base + 34),
    run .udpDstPort (k := 2) (n := 2) (by decide) (base + 34), run .udpLength (k := 4) (n := 2) (by decide) (base + 34),
    run .udpChecksum (k := 6) (n := 2) (by decide) (base + 34), trivial⟩

theorem encode_encapAt (s : State) (base : Nat) : (s.encapAt base).encode = s.mem.bytes base 42 := by
  rw [EncapHeaders.encode_eq_runBytes, runBytes_of_runsAt (runsAt_encapAt s base), EncapHeaders.map_fst_runs]
  rfl

/-- The stage leaves the encapsulation headers that the layout puts at the cursor. -/
theorem exec_decEncap_encapHeaders {s : State} (h : 42 ≤ s.len - s.off) :
    ∃ t, exec .decEncap s = .next t ∧ t.f.encapHeaders = some (s.encapAt s.off) := by
  obtain ⟨t, e, -, regs, -⟩ := encapsulationDecodesThreeHeaders s h
  exact ⟨t, e, RegFile.encapHeaders_eq_ofFields fun r hr => by rw [regs, if_pos hr]⟩

/-- Settles O34: the decoded headers encode to the 42 bytes, and no other headers do. -/
theorem encapsulationHeadersDetermineTheirBytes : Obligations.EncapsulationHeadersDetermineTheirBytes := by
  refine ⟨fun s h => ?_, fun s h hlen hbytes => ?_⟩
  · obtain ⟨t, e, headers⟩ := exec_decEncap_encapHeaders h
    exact ⟨t, _, e, headers, encode_encapAt s s.off⟩
  · obtain ⟨t, e, headers⟩ := exec_decEncap_encapHeaders hlen
    have same : s.encapAt s.off = h := EncapHeaders.encode_inj ((encode_encapAt s s.off).trans hbytes)
    exact ⟨t, e, by rw [headers, same]⟩

end Sys2Proof.Machine

/-! ## Where the encapsulation ends, a bare packet begins (42_encapsulation.md R194)

The stages after the encapsulation work on the geometry, the samples and the bytes from the cursor on; the encapsulation
leaves all three as a BARE transaction finds them, but for where the cursor stands. -/

namespace Sys2Proof.Machine

/-- The geometry, the samples and the bytes from the cursor on are the same. -/
structure SameAhead (s u : State) : Prop where
  geom : u.geom = s.geom
  samples : u.samples = s.samples
  bytes : ∀ k, u.mem.get (u.off + k) = s.mem.get (s.off + k)

theorem SameAhead.beAt_eq {s u : State} (h : SameAhead s u) (k n : Nat) : u.beAt (u.off + k) n = s.beAt (s.off + k) n := by
  rw [State.beAt, State.beAt]
  exact congrArg be (Memory.bytes_congr fun i _ => by rw [Nat.add_assoc, Nat.add_assoc, h.bytes])

/-- After attempts of one width, the same samples are all that is left to show. -/
theorem SameAhead.of_moves {n : Nat} {a b : State → Attempt} {s u t v : State} (h : SameAhead s u)
    (ha : Moves s.geom n a) (hb : Moves s.geom n b) (ht : a s = .ok t) (hv : b u = .ok v)
    (hsamples : v.samples = t.samples) : SameAhead t v := by
  obtain ⟨-, hoffT, ⟨hmemT, -, -, hgeomT, -⟩, -⟩ := ha.of_eq_ok rfl ht
  obtain ⟨-, hoffV, ⟨hmemV, -, -, hgeomV, -⟩, -⟩ := hb.of_eq_ok h.geom hv
  refine ⟨by rw [hgeomV, hgeomT, h.geom], hsamples, fun k => ?_⟩
  rw [hmemV, hmemT, hoffV, hoffT, Nat.add_assoc, Nat.add_assoc, h.bytes]

/-- The attempt does the same to the same samples and bytes, wherever they stand. -/
def Tracks (a : State → Attempt) : Prop := ∀ s u t v, SameAhead s u → a s = .ok t → a u = .ok v → SameAhead t v

theorem Tracks.loop {body : Nat → State → Attempt} (h : ∀ i, Tracks (body i)) (n : Nat) : Tracks (forUpto n body) := by
  induction n with
  | zero => intro s u t v hs ht hv; cases ht; cases hv; exact hs
  | succ n ih =>
    intro s u t v hs ht hv
    rw [forUpto_succ] at ht hv
    obtain ⟨t', ht', ht⟩ := ok_bind_iff.mp ht
    obtain ⟨v', hv', hv⟩ := ok_bind_iff.mp hv
    exact h n t' v' t v (ih s u t' v' hs ht' hv') ht hv

theorem tracks_sampleAt (b c p : Nat) : Tracks (sampleAt b c p) := by
  intro s u t v h ht hv
  refine h.of_moves (moves_sampleAt b c p) (moves_sampleAt b c p) ht hv ?_
  obtain rfl := sampleAt_eq_ok ht
  obtain rfl := sampleAt_eq_ok hv
  have re : u.mem.bytes u.off 2 = s.mem.bytes s.off 2 := Memory.bytes_congr fun i _ => h.bytes i
  have im : u.mem.bytes (u.off + 2) 2 = s.mem.bytes (s.off + 2) 2 :=
    Memory.bytes_congr fun i _ => by rw [Nat.add_assoc, Nat.add_assoc, h.bytes]
  simp [State.afterIm, State.afterRe, State.afterReadBe, State.afterRead, h.samples, re, im]

theorem tracks_decPayload : Tracks decPayload := by
  intro s u t v h ht hv
  rw [decPayload, h.geom] at hv
  exact Tracks.loop (fun b => .loop (fun c => .loop (tracks_sampleAt b c) s.geom.nPol) s.geom.nCh) s.geom.nBlk
    s u t v h ht hv

/-- The frame header is read from the bytes at the cursor alone. -/
theorem decFhdr_of_sameAhead {s u t v : State} (h : SameAhead s u) (ht : attemptOf .decFhdr s = .ok t)
    (hv : attemptOf .decFhdr u = .ok v) :
    SameAhead t v ∧ ∀ r, r.isFrame = true → v.f.get r = t.f.get r := by
  have moves : Moves s.geom 64 (attemptOf .decFhdr) := moves_attemptOf (i := .decFhdr) nofun nofun nofun
  have samples {x y : State} (e : attemptOf .decFhdr x = .ok y) : y.samples = x.samples :=
    ((leaves_attemptOf (i := .decFhdr) nofun nofun x y e).samples rfl).1
  refine ⟨h.of_moves moves moves ht hv (by rw [samples hv, samples ht, h.samples]), fun r hr => ?_⟩
  obtain ⟨-, fieldsT⟩ := decFhdr_eq_ok ht
  obtain ⟨-, fieldsV⟩ := decFhdr_eq_ok hv
  rw [fieldsT r hr, fieldsV r hr, State.fieldAt, State.fieldAt, h.beAt_eq]

/-- The stages of a BARE transaction answer alike from the same bytes on; the payload leaves the registers. -/
theorem bareBody_of_sameAhead {s u t v : State} (h : SameAhead s u) (ht : runAll Mode.bare.body s = .ok t)
    (hv : runAll Mode.bare.body u = .ok v) :
    v.samples = t.samples ∧ ∀ r, r.isFrame = true → v.f.get r = t.f.get r := by
  rw [Mode.body, runAll_cons] at ht hv
  obtain ⟨t', ht', payloadT⟩ := ok_bind_iff.mp ht
  obtain ⟨v', hv', payloadV⟩ := ok_bind_iff.mp hv
  rw [runAll_singleton] at payloadT payloadV
  obtain ⟨ahead, frame⟩ := decFhdr_of_sameAhead h ht' hv'
  have kept {x y : State} (e : attemptOf .decPayload x = .ok y) (r : Reg) : y.f.get r = x.f.get r :=
    (leaves_decPayload x y e).regs r rfl
  refine ⟨(tracks_decPayload t' v' t v ahead payloadT payloadV).samples, fun r hr => ?_⟩
  rw [kept payloadV, kept payloadT, frame r hr]

/-- After the encapsulation, the cursor stands before what a BARE transaction finds in the rest of the buffer. -/
theorem sameAhead_of_decEncap {s u t : State} (hget : ∀ a, u.mem.get a = s.mem.get (a + 42)) (hg : u.geom = s.geom)
    (h : attemptOf .decEncap s.beginTransaction = .ok t) : SameAhead t u.beginTransaction := by
  have moves : Moves s.geom 42 (attemptOf .decEncap) := moves_attemptOf (i := .decEncap) nofun nofun nofun
  obtain ⟨-, hoff, ⟨hmem, -, -, hgeom, -⟩, -⟩ := moves.of_eq_ok (s := s.beginTransaction) rfl h
  obtain ⟨hsamples, -⟩ := (leaves_attemptOf (i := .decEncap) nofun nofun _ t h).samples rfl
  refine ⟨hg.trans hgeom.symm, ?_, fun k => ?_⟩
  · rw [hsamples, State.beginTransaction_samples, State.beginTransaction_samples, hg]
  · rw [hmem, hoff, State.beginTransaction_off, State.beginTransaction_off, State.beginTransaction_mem,
      State.beginTransaction_mem, hget, Nat.zero_add, Nat.zero_add, Nat.add_comm]

/-- Settles O31: both commit, after the same bare stages from the same bytes on, or both take the exception. -/
theorem encapsulationOnlyMovesTheCursor : Obligations.EncapsulationOnlyMovesTheCursor := by
  intro s u t v hs hlen hget hg ht hv
  have needed : Mode.encap.neededBytes s.geom = 42 + Mode.bare.neededBytes u.geom := by
    rw [hg, Mode.neededBytes, Mode.neededBytes, Mode.headerBase, Mode.headerBase]
    omega
  by_cases h : Mode.encap.neededBytes s.geom ≤ s.len
  · obtain ⟨s', bodyS, execS⟩ := exec_command_of_le h
    obtain ⟨u', bodyU, execU⟩ := exec_command_of_le (m := .bare) (s := u) (by omega)
    obtain rfl : s'.commit .encap = t := Host.Outcome.next.inj (execS.symm.trans ht)
    obtain rfl : u'.commit .bare = v := Host.Outcome.next.inj (execU.symm.trans hv)
    obtain ⟨a, encap, bare⟩ := ok_bind_iff.mp bodyS
    obtain ⟨samples, frame⟩ := bareBody_of_sameAhead (sameAhead_of_decEncap hget hg encap) bare bodyU
    refine ⟨rfl, fun r hr => ?_, samples⟩
    have hne : r ≠ .encapV := by rintro rfl; cases hr
    rw [State.commit_f, State.commit_f, RegFile.get_put_of_ne _ _ hne, RegFile.get_put_of_ne _ _ hne, frame r hr]
  · obtain ⟨t', execS, statusT, ⟨regsT, samplesT⟩, -, -, -, -, geomT, -⟩ := exec_command_of_lt (Nat.lt_of_not_le h)
    obtain ⟨v', execU, statusV, ⟨regsV, samplesV⟩, -, -, -, -, geomV, -⟩ :=
      exec_command_of_lt (m := .bare) (s := u) (by omega)
    obtain rfl : t' = t := Host.Outcome.next.inj (execS.symm.trans ht)
    obtain rfl : v' = v := Host.Outcome.next.inj (execU.symm.trans hv)
    exact ⟨statusV.trans statusT.symm, fun r _ => by rw [regsV, regsT],
      by rw [samplesV, samplesT, geomV, geomT, hg]⟩

end Sys2Proof.Machine

/-! ## One part of a sample (43_payload.md R201, R202)

Each of the two reads changes one part of the element at the current coordinate, and no array where there is none. -/

namespace Sys2Proof.Machine

theorem modify_eq_self_of_fixed {α : Type} {l : List α} {i : Nat} {f : α → α} (h : ∀ x, l[i]? = some x → f x = x) :
    l.modify i f = l := by
  refine List.ext_getElem? fun j => ?_
  rw [List.getElem?_modify]
  split
  case isFalse => simp
  case isTrue hij =>
    subst hij
    cases hx : l[i]? with
    | none => rfl
    | some x => simp [h x hx]

/-- Nothing is written outside the extents (R207). -/
theorem SampleArray.update_of_no_element {a : SampleArray} {x : Coord} (f : Sample → Sample)
    (h : a.at x.b x.c x.p = none) : a.update x f = a := by
  refine modify_eq_self_of_fixed fun ch hch => modify_eq_self_of_fixed fun po hpo => modify_eq_self_of_fixed fun e he => ?_
  have element : a.at x.b x.c x.p = some e := by rw [SampleArray.at, hch, Option.bind_some, hpo, Option.bind_some, he]
  cases h.symm.trans element

theorem exec_smpRe {s : State} (h : 2 ≤ s.len - s.off) : exec .smpRe s = .next s.afterRe :=
  reads_smpRe.exec_of_le (i := .smpRe) h

theorem exec_smpIm {s : State} (h : 2 ≤ s.len - s.off) : exec .smpIm s = .next s.afterIm :=
  reads_smpIm.exec_of_le (i := .smpIm) h

theorem State.afterRe_coord (s : State) : s.afterRe.coord = s.coord := rfl

theorem State.at_afterRe (s : State) (b c p : Nat) :
    s.afterRe.samples.at b c p = if (b, c, p) = (s.coord.b, s.coord.c, s.coord.p)
      then (s.samples.at b c p).map fun e => { e with re := some (BitVec.ofNat 16 (s.beAt s.off 2)) }
      else s.samples.at b c p :=
  SampleArray.at_update s.samples s.coord _ b c p

theorem State.at_afterIm (s : State) (b c p : Nat) :
    s.afterIm.samples.at b c p = if (b, c, p) = (s.coord.b, s.coord.c, s.coord.p)
      then (s.samples.at b c p).map fun e => { e with im := some (BitVec.ofNat 16 (s.beAt s.off 2)) }
      else s.samples.at b c p :=
  SampleArray.at_update s.samples s.coord _ b c p

theorem State.samples_afterRe_of_no_element {s : State} (h : s.samples.at s.coord.b s.coord.c s.coord.p = none) :
    s.afterRe.samples = s.samples := SampleArray.update_of_no_element _ h

theorem State.samples_afterIm_of_no_element {s : State} (h : s.samples.at s.coord.b s.coord.c s.coord.p = none) :
    s.afterIm.samples = s.samples := SampleArray.update_of_no_element _ h

/-- Settles O20: the elements by `at_afterRe` and `at_afterIm`, at the current coordinate and at the others. -/
theorem samplePartsAreReadAtTheCoordinate : Obligations.SamplePartsAreReadAtTheCoordinate := by
  intro s h
  refine ⟨fun e he => ⟨⟨_, exec_smpRe h, ?_⟩, ⟨_, exec_smpIm h, ?_⟩⟩, fun hnone => ?_, fun i hi => ?_⟩
  · rw [State.at_afterRe, if_pos rfl, he, Option.map_some]
  · rw [State.at_afterIm, if_pos rfl, he, Option.map_some]
  · exact ⟨⟨_, exec_smpRe h, State.samples_afterRe_of_no_element hnone⟩,
      ⟨_, exec_smpIm h, State.samples_afterIm_of_no_element hnone⟩⟩
  · rcases hi with rfl | rfl
    · exact ⟨_, exec_smpRe h, fun b c p hne => by rw [State.at_afterRe, if_neg hne], rfl, rfl, rfl, rfl, rfl, rfl,
        rfl, rfl, rfl, rfl, rfl⟩
    · exact ⟨_, exec_smpIm h, fun b c p hne => by rw [State.at_afterIm, if_neg hne], rfl, rfl, rfl, rfl, rfl, rfl,
        rfl, rfl, rfl, rfl, rfl⟩

end Sys2Proof.Machine

/-! ## The payload puts its samples at their coordinates (43_payload.md R203)

The loops deliver the samples in the order of their linear indices, 4 bytes each: after `k` of them the cursor stands
`4 * k` bytes further, and exactly the elements of index below `k` hold what the layout gives them. -/

namespace Sys2Proof.Machine

/-- The element that the layout puts at a coordinate when the payload begins at `base`. -/
def State.payloadElement (s : State) (base b c p : Nat) : Sample :=
  ⟨some (s.payloadSample base b c p).1, some (s.payloadSample base b c p).2⟩

theorem State.pair_payloadElement (s : State) (base b c p : Nat) :
    (s.payloadElement base b c p).pair = some (s.payloadSample base b c p) := rfl

theorem Geometry.holds_iff {g : Geometry} {b c p : Nat} :
    g.Holds (b, c, p) ↔ b < g.nBlk ∧ c < g.nCh ∧ p < g.nPol := Iff.rfl

/-- `u` is `s` after the first `k` samples of the payload at its cursor. -/
structure SamplesRead (s : State) (k : Nat) (u : State) : Prop where
  off : u.off = s.off + 4 * k
  run : s.SameRun u
  /-- The elements delivered so far. -/
  read : ∀ b c p, s.geom.Holds (b, c, p) → s.geom.linear b c p < k →
    u.samples.at b c p = (s.samples.at b c p).map fun _ => s.payloadElement s.off b c p
  /-- The elements of later samples, and what is no element of the extents. -/
  rest : ∀ b c p, (s.geom.Holds (b, c, p) → k ≤ s.geom.linear b c p) → u.samples.at b c p = s.samples.at b c p

theorem SamplesRead.zero (s : State) : SamplesRead s 0 s :=
  ⟨rfl, State.SameRun.refl s, fun _ _ _ _ h => absurd h (Nat.not_lt_zero _), fun _ _ _ _ => rfl⟩

/-- Both parts of the element are replaced, by the four bytes at the cursor. -/
theorem at_of_sampleAt_eq_ok {b c p : Nat} {s t : State} (h : sampleAt b c p s = .ok t) (b' c' p' : Nat) :
    t.samples.at b' c' p' = if (b', c', p') = (b, c, p)
      then (s.samples.at b' c' p').map fun _ =>
        ⟨some (BitVec.ofNat 16 (s.beAt s.off 2)), some (BitVec.ofNat 16 (s.beAt (s.off + 2) 2))⟩
      else s.samples.at b' c' p' := by
  obtain rfl := sampleAt_eq_ok h
  rw [State.at_afterIm, State.afterRe_coord, State.at_afterRe]
  dsimp only
  split
  · rw [Option.map_map]; rfl
  · rfl

/-- The sample of index `k` follows those of index below `k`. -/
theorem SamplesRead.sampleAt {s u : State} {b c p : Nat} (hx : s.geom.Holds (b, c, p))
    (h : s.geom.payloadBytes ≤ s.len - s.off) (hu : SamplesRead s (s.geom.linear b c p) u) :
    ∃ t, sampleAt b c p u = .ok t ∧ SamplesRead s (s.geom.linear b c (p + 1)) t := by
  have ⟨hb, hc, hp⟩ := Geometry.holds_iff.mp hx
  have below := Geometry.linear_lt hb hc hp
  have ⟨⟨hmem, hlen, _, hgeom, _⟩, _⟩ := hu.run
  rw [Geometry.payloadBytes, Config.sampleBytes] at h
  obtain ⟨t, e, hoff, ht⟩ := (moves_sampleAt b c p).ok u hgeom (by rw [hlen, hu.off]; omega)
  have bytes (a : Nat) : u.beAt a 2 = s.beAt a 2 := by rw [State.beAt, hmem, State.beAt]
  have next : s.geom.linear b c (p + 1) = s.geom.linear b c p + 1 := rfl
  refine ⟨t, e, by rw [hoff, hu.off, next]; omega, hu.run.trans ht, fun b' c' p' hx' hlt => ?_, fun b' c' p' hge => ?_⟩
  · rw [at_of_sampleAt_eq_ok e]
    split
    case isTrue same =>
      obtain ⟨rfl, rfl, rfl⟩ : b' = b ∧ c' = c ∧ p' = p := by simpa using same
      rw [hu.rest b' c' p' fun _ => le_rfl, bytes, bytes, hu.off]
      rfl
    case isFalse other =>
      have ⟨_, hc', hp'⟩ := Geometry.holds_iff.mp hx'
      refine hu.read b' c' p' hx' ((Nat.lt_succ_iff_lt_or_eq.mp hlt).resolve_right fun same => other ?_)
      obtain ⟨rfl, rfl, rfl⟩ := Geometry.linear_inj hc' hp' hc hp same
      rfl
  · rw [at_of_sampleAt_eq_ok e, if_neg, hu.rest b' c' p' fun hx' => by have := hge hx'; omega]
    rintro ⟨⟩
    have := hge hx
    omega

/-- The last index of a channel's samples is followed by the first of the next one's. -/
theorem Geometry.linear_nPol (g : Geometry) (b c : Nat) : g.linear b c g.nPol = g.linear b (c + 1) 0 := by
  rw [Geometry.linear, Geometry.linear]; ring

/-- The last index of a block's samples is followed by the first of the next one's. -/
theorem Geometry.linear_nCh (g : Geometry) (b : Nat) : g.linear b g.nCh 0 = g.linear (b + 1) 0 0 := by
  rw [Geometry.linear, Geometry.linear]; ring

/-- With its bytes the payload goes on, past all its samples. -/
theorem decPayload_samplesRead {s : State} (h : s.geom.payloadBytes ≤ s.len - s.off) :
    ∃ t, decPayload s = .ok t ∧ SamplesRead s (s.geom.linear s.geom.nBlk 0 0) t := by
  refine forUpto_inv (P := fun b => SamplesRead s (s.geom.linear b 0 0)) ?_ fun b u hb hu => ?_
  · simpa [Geometry.linear] using SamplesRead.zero s
  rw [← Geometry.linear_nCh]
  refine forUpto_inv (P := fun c => SamplesRead s (s.geom.linear b c 0)) hu fun c u hc hu => ?_
  rw [← Geometry.linear_nPol]
  exact forUpto_inv (P := fun p => SamplesRead s (s.geom.linear b c p)) hu fun p u hp hu => hu.sampleAt ⟨hb, hc, hp⟩ h

/-- After the payload each coordinate inside the extents has its sample. -/
theorem SamplesRead.at_of_holds {s t : State} {b c p : Nat} (ht : SamplesRead s (s.geom.linear s.geom.nBlk 0 0) t)
    (hx : s.geom.Holds (b, c, p)) :
    t.samples.at b c p = (s.samples.at b c p).map fun _ => s.payloadElement s.off b c p := by
  have ⟨hb, hc, hp⟩ := Geometry.holds_iff.mp hx
  exact ht.read b c p hx (by simpa [Geometry.linear] using Geometry.linear_lt hb hc hp)

/-- Settles O24: the samples and the cursor by `SamplesRead`, the registers and words as `DEC.PAYLOAD` leaves them. -/
theorem payloadStageFillsEverySample : Obligations.PayloadStageFillsEverySample := by
  intro s h elements
  obtain ⟨t, e, ht⟩ := decPayload_samplesRead h
  obtain ⟨hin, hstatus, hseq⟩ := ht.run
  obtain ⟨regs, words, -⟩ := leaves_decPayload s t e
  refine ⟨t, by rw [exec_eq_settle, attemptOf, e, settle_ok], ?_, fun b c p hb hc hp => ?_, fun b c p hx => ?_,
    RegFile.ext_get fun r => regs r rfl, words rfl, hstatus, hseq, hin⟩
  · rw [ht.off, Geometry.linear, Geometry.payloadBytes, Config.sampleBytes]; ring
  · obtain ⟨x, hx⟩ := Option.isSome_iff_exists.mp (elements b c p hb hc hp)
    rw [ht.at_of_holds ⟨hb, hc, hp⟩, hx, Option.map_some, Option.bind_some, State.pair_payloadElement]
  · exact ht.rest b c p fun holds => absurd holds hx

end Sys2Proof.Machine

/-! ## The samples of a transaction (43_payload.md R206) -/

namespace Sys2Proof.Machine

/-- The headers of a mode end where its payload begins (20_memory.md R59, R60). -/
theorem moves_headers_headerBase (g : Geometry) (m : Mode) : Moves g (m.headerBase + 64) (runAll m.headers) := by
  have width : (m.headers.map (Instr.needs g)).sum = m.headerBase + 64 := by cases m <;> rfl
  rw [← width]
  exact Moves.runAll fun i hi => by
    apply moves_attemptOf <;> (rintro rfl; cases m <;> simp [Mode.headers] at hi)

/-- The array of a transaction is empty where its payload begins, and `DEC.PAYLOAD` puts every sample in it. -/
theorem body_samples {m : Mode} {s t : State} (hlen : m.neededBytes s.geom ≤ s.len)
    (h : runAll m.body s.beginTransaction = .ok t) {b c p : Nat} (hx : s.geom.Holds (b, c, p)) :
    t.samples.at b c p = some (s.payloadElement (m.headerBase + 64) b c p) := by
  rw [Mode.body_eq, runAll_append] at h
  obtain ⟨u, hu, ht⟩ := ok_bind_iff.mp h
  rw [runAll_singleton] at ht
  obtain ⟨-, hsamples, -⟩ := fills_headers m s.beginTransaction u trivial hu
  obtain ⟨-, hoff, ⟨hmem, hlenu, -, hgeom, -⟩, -⟩ :=
    (moves_headers_headerBase s.geom m).of_eq_ok (s := s.beginTransaction) rfl hu
  rw [State.beginTransaction_off, Nat.zero_add] at hoff
  rw [State.beginTransaction_geom] at hgeom
  obtain ⟨t', e, read⟩ := decPayload_samplesRead (s := u) (by
    rw [Mode.neededBytes] at hlen; rw [hgeom, hlenu, hoff, State.beginTransaction_len]; omega)
  obtain rfl : t' = t := Except.ok.inj (e.symm.trans ht)
  have layout : u.payloadElement (m.headerBase + 64) b c p = s.payloadElement (m.headerBase + 64) b c p := by
    simp [State.payloadElement, State.payloadSample, State.beAt, hmem, hgeom]
  have empty : u.samples.at b c p = some ⟨none, none⟩ := by
    rw [hsamples, State.beginTransaction_samples, SampleArray.at_absent, if_pos (Geometry.holds_iff.mp hx)]
  rw [read.at_of_holds (hgeom ▸ hx), empty, Option.map_some, hoff, layout]

/-- The host reads each sample of a transaction that had its bytes as the layout gives it. -/
theorem hostSample_of_command {m : Mode} {s t : State} (hlen : m.neededBytes s.geom ≤ s.len)
    (h : exec m.command s = .next t) {b c p : Nat} (hx : s.geom.Holds (b, c, p)) :
    t.hostSample b c p = .ok (s.payloadSample (m.headerBase + 64) b c p) := by
  obtain ⟨u, hu, e⟩ := exec_command_of_le hlen
  obtain rfl : u.commit m = t := Host.Outcome.next.inj (e.symm.trans h)
  exact hostSample_of_pair rfl (body_samples hlen hu hx) (s.pair_payloadElement _ b c p)

/-- Settles O37: the sample at a coordinate is the one that the buffer holds at its linear index. -/
theorem payloadPatternIsReproduced : Obligations.PayloadPatternIsReproduced := by
  intro s t hlen pattern h b c p hb hc hp
  obtain ⟨re, im⟩ := pattern _ (Geometry.linear_lt hb hc hp)
  have wraps (n : Nat) : BitVec.ofNat 16 (n % 65536) = BitVec.ofNat 16 n :=
    BitVec.eq_of_toNat_eq (by simp)
  rw [hostSample_of_command (m := .bare) hlen h ⟨hb, hc, hp⟩, State.payloadSample, Mode.headerBase, Nat.zero_add,
    re, im, wraps, Geometry.linear]
  rfl

end Sys2Proof.Machine

/-! ## The result of a transaction that has its bytes (44_packet.md R210 to R212) -/

namespace Sys2Proof.Machine

/-- The value that the layout of a mode gives a field: those of the frame header stand in the header at the mode's base,
those of the encapsulation in their header from address 0 on (20_memory.md R59, R60). -/
def State.layoutField (s : State) (m : Mode) (r : Reg) : BitVec r.width :=
  if r.isFrame then s.fieldAt m.headerBase r else s.fieldAt r.headerOffset r

theorem State.layoutField_of_isFrame (s : State) (m : Mode) {r : Reg} (h : r.isFrame = true) :
    s.layoutField m r = s.fieldAt m.headerBase r := if_pos h

theorem State.layoutField_of_isEncap (s : State) (m : Mode) {r : Reg} (h : r.isEncap = true) :
    s.layoutField m r = s.fieldAt r.headerOffset r :=
  if_neg (by rw [Reg.isFrame_of_isEncap h]; exact Bool.false_ne_true)

theorem decodes_decFhdr (s : State) (base : Nat) :
    Decodes (s.fieldAt base) (AtByte s base 0) [.decFhdr] (AtByte s base 64) := by
  intro u t hu e
  rw [runAll_singleton] at e
  have moves : Moves u.geom 64 (attemptOf .decFhdr) := moves_attemptOf (i := .decFhdr) nofun nofun nofun
  obtain ⟨-, hoff, ⟨hmem, -⟩, -⟩ := moves.of_eq_ok rfl e
  obtain ⟨-, fields⟩ := decFhdr_eq_ok e
  refine ⟨hu.next s base hmem hoff, fun r => ?_⟩
  rw [List.any_cons, List.any_nil, Bool.or_false]
  split
  case isTrue hr =>
    obtain ⟨hmem, hoff⟩ := hu
    rw [fields r hr, State.fieldAt, State.fieldAt, State.beAt, State.beAt, hmem, hoff, Nat.add_zero]
  case isFalse hr =>
    exact (leaves_attemptOf (i := .decFhdr) nofun nofun u t e).regs r (Bool.eq_false_of_not_eq_true hr)

/-- Each header of a mode is decoded from where the address map puts it. -/
theorem decodes_headers (s : State) (m : Mode) :
    Decodes (s.layoutField m) (AtByte s 0 0) m.headers (AtByte s m.headerBase 64) := by
  have frame (m : Mode) : Decodes (s.layoutField m) (AtByte s m.headerBase 0) [.decFhdr] (AtByte s m.headerBase 64) :=
    (decodes_decFhdr s m.headerBase).congr fun r hr => (s.layoutField_of_isFrame m hr).symm
  cases m with
  | bare => exact frame .bare
  | encap =>
    have encap : Decodes (s.layoutField .encap) (AtByte s 0 0) [.decEncap] (AtByte s 0 42) :=
      (decodes_decEncap s 0).congr fun r hr => by rw [s.layoutField_of_isEncap .encap hr, Nat.zero_add]
    exact encap.cons (frame .encap)

/-- The registers that the headers of a mode write hold the layout's values, and no other holds one. -/
theorem body_regs {m : Mode} {s t : State} (h : runAll m.body s.beginTransaction = .ok t) (r : Reg) :
    t.f.get r = if r.isFrame || (decide (m = .encap) && r.isEncap) then some (s.layoutField m r) else none := by
  rw [Mode.body_eq, runAll_append] at h
  obtain ⟨u, hu, ht⟩ := ok_bind_iff.mp h
  rw [runAll_singleton] at ht
  obtain ⟨-, regs⟩ := decodes_headers s m s.beginTransaction u ⟨rfl, rfl⟩ hu
  rw [(leaves_decPayload u t ht).regs r rfl, regs, headers_any_writes, State.beginTransaction_f, RegFile.get_absent]

/-- No element stands outside the extents (10_state.md R34). -/
theorem body_samples_outside {m : Mode} {s t : State} (h : runAll m.body s.beginTransaction = .ok t) {b c p : Nat}
    (hx : ¬ s.geom.Holds (b, c, p)) : t.samples.at b c p = none := by
  obtain ⟨-, -, ⟨-, -, -, hgeom, -⟩, -⟩ := (moves_body s.geom m).of_eq_ok (s := s.beginTransaction) rfl h
  rw [State.beginTransaction_geom] at hgeom
  obtain ⟨-, -, -, -, -, outside⟩ := body_complete h
  exact outside b c p (by rw [State.commit_geom, hgeom]; exact hx)

/-- What a command leaves of a long enough buffer, for both modes: O26 and O27 are its two cases. -/
theorem exec_command_yields {m : Mode} {s : State} (h : m.neededBytes s.geom ≤ s.len) :
    ∃ t, exec m.command s = .next t ∧ t.status = .ok ∧ t.f.get .encapV = some m.bit ∧
      (∀ r, r.isFrame = true → t.f.get r = some (s.fieldAt m.headerBase r)) ∧
      (∀ r, r.isEncap = true → t.f.get r = if m = .encap then some (s.fieldAt r.headerOffset r) else none) ∧
      (∀ b c p, b < s.geom.nBlk → c < s.geom.nCh → p < s.geom.nPol →
        t.hostSample b c p = .ok (s.payloadSample (m.headerBase + 64) b c p)) ∧
      (∀ b c p, ¬ (b < s.geom.nBlk ∧ c < s.geom.nCh ∧ p < s.geom.nPol) →
        t.hostSample b c p = .error .noSuchSample) ∧
      t.off = m.neededBytes s.geom ∧ t.seq = s.seq ∧ s.SameInputs t := by
  obtain ⟨u, hu, e⟩ := exec_command_of_le h
  obtain ⟨-, hoff, hin, -, hseq⟩ := (moves_body s.geom m).of_eq_ok (s := s.beginTransaction) rfl hu
  rw [State.beginTransaction_off, Nat.zero_add] at hoff
  have regs (r : Reg) (hr : r ≠ .encapV) : (u.commit m).f.get r =
      if r.isFrame || (decide (m = .encap) && r.isEncap) then some (s.layoutField m r) else none := by
    rw [State.commit_f, RegFile.get_put_of_ne _ _ hr, body_regs hu]
  refine ⟨u.commit m, e, rfl, rfl, fun r hr => ?_, fun r hr => ?_,
    fun b c p hb hc hp => hostSample_of_command h e ⟨hb, hc, hp⟩,
    fun b c p hx => hostSample_of_no_element rfl (body_samples_outside hu hx), hoff, hseq, hin⟩
  · rw [regs r (by rintro rfl; cases hr), hr, Bool.true_or, if_pos rfl, s.layoutField_of_isFrame m hr]
  · rw [regs r (by rintro rfl; cases hr), Reg.isFrame_of_isEncap hr, hr, Bool.and_true, Bool.false_or,
      s.layoutField_of_isEncap m hr]
    simp only [decide_eq_true_eq]

/-- Settles O26: BARE has no encapsulation, so its frame header stands at 0 and its payload at 64. -/
theorem bareDecodeYieldsItsPacket : Obligations.BareDecodeYieldsItsPacket := by
  intro s h
  have total : Mode.bare.neededBytes s.geom = 64 + s.geom.payloadBytes := by
    rw [Mode.neededBytes, Mode.headerBase, Nat.zero_add]
  have yields := exec_command_yields (m := .bare) (s := s) (by omega)
  rw [total] at yields
  exact yields

/-- Settles O27: ENCAP has its 42 bytes before both. -/
theorem encapDecodeYieldsItsPacket : Obligations.EncapDecodeYieldsItsPacket := by
  intro s h
  exact exec_command_yields (m := .encap) h

end Sys2Proof.Machine

/-! ## The outcome of a transaction in any run (44_packet.md R220, 60_exceptions.md R242)

No operation looks at `MODE`, at the start request or at what is left to run; the rest of what stood before, a command
clears when it begins. -/

namespace Sys2Proof.Machine

/-- The same state in the run of `u`: its mode, its start request and what it has left to run. -/
def State.withRun (s u : State) : State := { s with mode := u.mode, start := u.start, seq := u.seq }

/-- The same attempt in the run of `u`. -/
def rerun (u : State) : Attempt → Attempt
  | .ok t => .ok (t.withRun u)
  | .error t => .error (t.withRun u)

@[simp] theorem rerun_ok (u s : State) : rerun u (.ok s) = .ok (s.withRun u) := rfl
@[simp] theorem rerun_error (u s : State) : rerun u (.error s) = .error (s.withRun u) := rfl

theorem State.onto_withRun (s u : State) : s.onto (s.withRun u) = s.withRun u := rfl

theorem attemptOf_withRun {i : Instr} (h : i.isComposite = false) (s u : State) :
    attemptOf i (s.withRun u) = rerun u (attemptOf i s) := by
  obtain ⟨n, f, ⟨ok, error⟩, -, -⟩ := isRead_of_not_composite h
  by_cases hn : n ≤ s.len - s.off
  · have sees := seesOnly_of_not_composite (g := s.geom) h
    obtain ⟨needs, hoff, ⟨hmem, hlen, -⟩, -⟩ := sees.of_eq_ok rfl (ok s hn)
    have same := sees.sees s (s.withRun u) (f s) rfl needs rfl (ok s hn)
    have after : (f s).onto ((s.withRun u).advance (i.needs s.geom)) = (f s).withRun u := by
      simp [State.onto, State.advance, State.withRun, hmem, hlen, hoff]
    rw [State.onto_withRun, after] at same
    rw [same, ok s hn, rerun_ok]
  · rw [error s (by omega), error (s.withRun u) (Nat.lt_of_not_le hn), rerun_error]

theorem runAll_withRun {is : List Instr} (h : ∀ i ∈ is, i.isComposite = false) (s u : State) :
    runAll is (s.withRun u) = rerun u (runAll is s) := by
  induction is generalizing s with
  | nil => rfl
  | cons i is ih =>
    rw [List.forall_mem_cons] at h
    rw [runAll_cons, runAll_cons, attemptOf_withRun h.1]
    cases attemptOf i s with
    | ok t => exact ih h.2 t
    | error t => rfl

/-- Stages in sequence run their expansions in sequence (30_encoding.md R103). -/
theorem runAll_flatMap_expansion {is : List Instr} (h : ∀ i ∈ is, i ∈ stages) (s : State) :
    runAll (is.flatMap Instr.expansion) s = runAll is s := by
  induction is generalizing s with
  | nil => rfl
  | cons i is ih =>
    rw [List.forall_mem_cons] at h
    rw [List.flatMap_cons, runAll_append, runAll_cons, attemptOf_stage h.1, funext (ih h.2)]

/-- The stages of a mode's headers whose expansions hold no stage. -/
def Mode.flatHeaders : Mode → List Instr
  | .bare => [.decFhdr]
  | .encap => [.decEth, .decIpv4, .decUdp, .decFhdr]

theorem runAll_flatHeaders (m : Mode) (s : State) : runAll m.flatHeaders s = runAll m.headers s := by
  cases m with
  | bare => rfl
  | encap =>
    rw [Mode.headers, runAll_cons, attemptOf_stage (by decide)]
    exact runAll_append Instr.decEncap.expansion [.decFhdr] s

/-- The operations of a transaction between its begin and its end, each of at most one read (44_packet.md R210). -/
def Mode.operations (m : Mode) (g : Geometry) : List Instr :=
  m.flatHeaders.flatMap Instr.expansion ++ samplePairs (g.nBlk * g.nCh * g.nPol)

theorem mem_headerOperations {m : Mode} {i : Instr} (h : i ∈ m.flatHeaders.flatMap Instr.expansion) :
    i.isComposite = false ∧ i.writesSamples = false := by
  revert h i
  cases m <;> decide

theorem isComposite_of_mem_operations {m : Mode} {g : Geometry} {i : Instr} (h : i ∈ m.operations g) :
    i.isComposite = false := by
  rcases List.mem_append.mp h with header | sample
  · exact (mem_headerOperations header).1
  · have pair : ∀ j ∈ ([.smpRe, .smpIm] : List Instr), j.isComposite = false := by decide
    obtain ⟨is, copies, hi⟩ := List.mem_flatten.mp sample
    rw [List.eq_of_mem_replicate copies] at hi
    exact pair i hi

theorem runAll_coord {is : List Instr} (h : ∀ i ∈ is, i.isComposite = false ∧ i.writesSamples = false) {s t : State}
    (e : runAll is s = .ok t) : t.coord = s.coord := by
  induction is generalizing s with
  | nil => cases e; rfl
  | cons i is ih =>
    rw [List.forall_mem_cons] at h
    obtain ⟨⟨simple, noSamples⟩, rest⟩ := h
    obtain ⟨u, hu, ht⟩ := ok_bind_iff.mp e
    obtain ⟨-, hcoord⟩ := (leaves_of_not_composite simple s u hu).samples noSamples
    exact (ih rest ht).trans hcoord

/-- From its begin a transaction runs its operations one after another. -/
theorem runAll_operations (m : Mode) (s : State) :
    runAll (m.operations s.geom) s.beginTransaction = runAll m.body s.beginTransaction := by
  have headers : runAll (m.flatHeaders.flatMap Instr.expansion) s.beginTransaction =
      runAll m.headers s.beginTransaction := by
    rw [runAll_flatMap_expansion (by cases m <;> decide), runAll_flatHeaders]
  rw [Mode.operations, Mode.body_eq, runAll_append, runAll_append, ← headers]
  cases e : runAll (m.flatHeaders.flatMap Instr.expansion) s.beginTransaction with
  | error u => rfl
  | ok u =>
    have coord : u.coord = ⟨0, 0, 0⟩ := runAll_coord (fun _ => mem_headerOperations) e
    obtain ⟨n, moves⟩ := moves_headers s.geom m
    obtain ⟨-, -, ⟨-, -, -, hgeom, -⟩, -⟩ := moves.of_eq_ok (s := s.beginTransaction) rfl (headers.symm.trans e)
    rw [State.beginTransaction_geom] at hgeom
    rw [ok_bind, ok_bind, runAll_singleton, ← hgeom]
    exact (decPayload_eq_runAll coord).symm

/-- A transaction comes to the same in any run, whether it goes on or runs short. -/
theorem runAll_body_withRun (m : Mode) (s u : State) :
    runAll m.body (s.withRun u).beginTransaction = rerun u (runAll m.body s.beginTransaction) := by
  rw [← runAll_operations, ← runAll_operations]
  exact runAll_withRun (fun _ => isComposite_of_mem_operations) s.beginTransaction u

/-- Settles O29: the two transactions begin alike but for their runs, so they end alike but for their runs. -/
theorem outcomeDependsOnInputsAlone : Obligations.OutcomeDependsOnInputsAlone := by
  intro s u t v m hmem hlen hgeom ht hv
  have begun : u.beginTransaction = (s.withRun u).beginTransaction := by
    simp [State.beginTransaction, State.withRun, hmem, hlen, hgeom]
  rw [exec_eq_settle, attemptOf_command] at ht hv
  rw [begun, runAll_body_withRun] at hv
  cases e : runAll m.body s.beginTransaction with
  | ok x =>
    rw [e] at ht hv
    obtain rfl : x.commit m = t := Host.Outcome.next.inj ht
    obtain rfl : (x.withRun u).commit m = v := Host.Outcome.next.inj hv
    exact ⟨rfl, rfl, rfl, rfl, rfl, rfl⟩
  | error x =>
    rw [e] at ht hv
    obtain rfl : x.takeTruncated = t := Host.Outcome.next.inj ht
    obtain rfl : (x.withRun u).takeTruncated = v := Host.Outcome.next.inj hv
    exact ⟨rfl, rfl, rfl, rfl, rfl, rfl⟩

end Sys2Proof.Machine

/-! ## The Packet of a complete result (44_packet.md R213) -/

namespace Sys2Proof.Machine

/-- The values in the registers, 0 where there is none. -/
def RegFile.values (f : RegFile) (r : Reg) : BitVec r.width := (f.get r).getD 0

theorem RegFile.get_eq_some_values {f : RegFile} {r : Reg} (h : (f.get r).isSome = true) :
    f.get r = some (f.values r) := by
  obtain ⟨v, hv⟩ := Option.isSome_iff_exists.mp h
  rw [RegFile.values, hv, Option.getD_some]

theorem exists_mapM_eq_some {α β : Type} {f : α → Option β} {l : List α} (h : ∀ x ∈ l, ∃ y, f x = some y) :
    ∃ ys, l.mapM f = some ys := by
  induction l with
  | nil => exact ⟨[], rfl⟩
  | cons x l ih =>
    rw [List.forall_mem_cons] at h
    obtain ⟨⟨y, hy⟩, rest⟩ := h
    obtain ⟨ys, hys⟩ := ih rest
    exact ⟨y :: ys, by rw [List.mapM_cons, hy, hys]; rfl⟩

/-- An array whose elements all hold both parts has its pairs. -/
theorem SampleArray.exists_pairs_eq_some {a : SampleArray}
    (h : ∀ b c p e, a.at b c p = some e → ∃ v, e.pair = some v) : ∃ ps, a.pairs = some ps := by
  refine exists_mapM_eq_some fun ch hch => exists_mapM_eq_some fun po hpo => exists_mapM_eq_some fun e he => ?_
  obtain ⟨b, hb⟩ := List.mem_iff_getElem?.mp hch
  obtain ⟨c, hc⟩ := List.mem_iff_getElem?.mp hpo
  obtain ⟨p, hp⟩ := List.mem_iff_getElem?.mp he
  exact h b c p e (by rw [SampleArray.at, hb, Option.bind_some, hc, Option.bind_some, hp])

theorem Mode.bit_eq_one_iff {m : Mode} : m.bit = 1 ↔ m = .encap := by
  cases m <;> decide

/-- A complete result makes a Packet, with encapsulation headers in ENCAP mode. -/
theorem packet_of_complete {s : State} (hok : s.status = .ok) (h : s.Complete) :
    ∃ k, s.packet = some k ∧ (k.encap.isSome = true ↔ s.f.get .encapV = some 1) := by
  obtain ⟨m, hmode, frame, encap, inside, outside⟩ := h
  have header : s.f.frameHeader = some (.ofFields s.f.values) :=
    RegFile.frameHeader_eq_ofFields fun r hr => RegFile.get_eq_some_values (frame r hr)
  obtain ⟨ps, samples⟩ : ∃ ps, s.samples.pairs = some ps := SampleArray.exists_pairs_eq_some fun b c p e he => by
    by_cases hx : b < s.geom.nBlk ∧ c < s.geom.nCh ∧ p < s.geom.nPol
    · obtain ⟨v, hv⟩ := inside b c p hx
      exact ⟨v, by rwa [he, Option.bind_some] at hv⟩
    · rw [outside b c p hx] at he
      cases he
  have hv : s.f.encapV = some m.bit := hmode
  rw [hmode, Option.some_inj, Mode.bit_eq_one_iff]
  cases m with
  | bare =>
    refine ⟨⟨none, .ofFields s.f.values, ps⟩, ?_, iff_of_false Bool.false_ne_true nofun⟩
    rw [State.packet, if_pos hok, hv, header, samples]
    rfl
  | encap =>
    have headers : s.f.encapHeaders = some (.ofFields s.f.values) :=
      RegFile.encapHeaders_eq_ofFields fun r hr => RegFile.get_eq_some_values (encap r hr)
    refine ⟨⟨some (.ofFields s.f.values), .ofFields s.f.values, ps⟩, ?_, iff_of_true rfl rfl⟩
    rw [State.packet, if_pos hok, hv, header, samples, headers]
    rfl

/-- Settles O39: by the invariant the result is complete where STATUS = OK, and elsewhere there is no Packet. -/
theorem packetIsThereExactlyWhenOk : Obligations.PacketIsThereExactlyWhenOk := by
  rintro s ⟨-, -, -, -, -, -, complete⟩
  by_cases hok : s.status = .ok
  · obtain ⟨k, hk, encap⟩ := packet_of_complete hok (complete hok)
    rw [hk]
    exact ⟨iff_of_true rfl hok, fun k' e => Option.some_inj.mp e ▸ encap⟩
  · have absent : s.packet = none := if_neg hok
    rw [absent]
    exact ⟨iff_of_false Bool.false_ne_true hok, nofun⟩

end Sys2Proof.Machine

/-! ## From the host's start to the end of the run (44_packet.md R215, R222) -/

namespace Sys2Proof.Machine

theorem step_of_start {s : State} (hseq : s.seq = []) (hstart : s.start = true) : step s = .next s.acceptStart := by
  simp [step, hseq, hstart]

/-- A request beside operations still to run has no meaning (70_reset_and_hazards.md R267). -/
theorem step_refused {s : State} (hseq : s.seq ≠ []) (hstart : s.start = true) :
    step s = .refused .startDuringRun := by
  cases e : s.seq with
  | nil => exact absurd e hseq
  | cons i rest => simp [step, e, hstart]

theorem step_answers_next {s : State} (h : s.seq = [] ∨ s.start = false) : ∃ t, step s = .next t := by
  cases hseq : s.seq with
  | nil =>
    cases hstart : s.start with
    | true => exact ⟨_, step_of_start hseq hstart⟩
    | false => exact ⟨s, step_idle hseq hstart⟩
  | cons i rest =>
    have hstart : s.start = false := h.resolve_left (by rw [hseq]; exact List.cons_ne_nil i rest)
    rw [step_of_seq_cons hseq hstart]
    exact exec_answers_next i _

/-- A command that is the last operation of its run ends it, well or by its error, as the length decides. -/
theorem exec_command_ends {m : Mode} {s : State} (hseq : s.seq = []) (hstart : s.start = false) :
    ∃ t, exec m.command s = .next t ∧ t.start = false ∧
      (m.neededBytes s.geom ≤ s.len → t.goodEnd = true) ∧ (s.len < m.neededBytes s.geom → t.failedEnd = true) := by
  obtain ⟨t, e, decided, failed⟩ := exec_command_status m s
  obtain ⟨-, ⟨-, -, -, -, hstart'⟩, ended⟩ := exec_command e
  have start : t.start = false := hstart'.trans hstart
  have seq : t.seq = [] := by
    rcases ended with ⟨-, -, -, same⟩ | ⟨-, -, none_left, -⟩
    · exact same.trans hseq
    · exact none_left
  have idle : t.running = false := State.running_eq_false.mpr ⟨seq, start⟩
  refine ⟨t, e, start, fun long => ?_, fun short => ?_⟩
  · rw [State.goodEnd, idle, decided.mpr long]; rfl
  · obtain ⟨truncated, -⟩ := failed fun ok => absurd (decided.mp ok) (Nat.not_le.mpr short)
    rw [State.failedEnd, idle, truncated]; rfl

/-- From a standing request the first step accepts the start and the second runs the command of the mode. -/
theorem run_of_started {s : State} (hseq : s.seq = []) (hstart : s.start = true) :
    Host.Core.run Sys2Proof.core 2 s = exec s.mode.command (s.acceptStart.withSeq []) := by
  obtain ⟨t, e⟩ := exec_answers_next s.mode.command (s.acceptStart.withSeq [])
  have second : step s.acceptStart = .next t := (step_of_seq_cons rfl rfl).trans e
  exact (run_succ 1 (step_of_start hseq hstart)).trans ((run_succ 0 second).trans e.symm)

/-- A started run ends, well or by its error, as the length decides. -/
theorem started_ends {s : State} (hseq : s.seq = []) (hstart : s.start = true) :
    ∃ t, Host.Core.run Sys2Proof.core 2 s = .next t ∧ t.start = false ∧
      (s.mode.neededBytes s.geom ≤ s.len → t.goodEnd = true) ∧
      (s.len < s.mode.neededBytes s.geom → t.failedEnd = true) := by
  rw [run_of_started hseq hstart]
  exact exec_command_ends rfl rfl

/-- Settles O41: after the two moves the request stands, and mode and length are those presented. -/
theorem startedTransactionReachesItsEnd : Obligations.StartedTransactionReachesItsEnd := by
  intro s u v p m hpresent hstart
  obtain ⟨-, -, rfl⟩ := hostPresent_eq_ok.mp hpresent
  obtain ⟨hseq, -, hv⟩ := hostStart_eq_ok.mp hstart
  have ends := started_ends (s := v) (by rw [hv]; exact hseq) (by rw [hv])
  rw [hv] at ends ⊢
  exact ends

/-- The host's start is refused during a run (log 10). -/
theorem hostStart_of_running {s : State} (h : s.seq ≠ [] ∨ s.start = true) :
    s.hostStart = .error .startDuringRun := by
  refine if_pos (Bool.eq_true_of_not_eq_false fun idle => ?_)
  obtain ⟨hseq, hstart⟩ := State.running_eq_false.mp idle
  rcases h with busy | asked
  · exact busy hseq
  · rw [hstart] at asked; cases asked

/-- Settles O43, one lemma per shape of request and sequence. -/
theorem startIsAcceptedOnlyWhenIdle : Obligations.StartIsAcceptedOnlyWhenIdle := by
  intro s
  refine ⟨fun hseq hstart => ⟨step_idle hseq hstart, _, hostStart_eq_ok.mpr ⟨hseq, hstart, rfl⟩, ?_⟩,
    fun hseq hstart => ⟨_, step_of_start hseq hstart, ?_⟩, step_refused, hostStart_of_running⟩
  · exact ⟨rfl, ⟨rfl, rfl⟩, rfl, hseq, rfl, rfl, rfl, rfl, rfl⟩
  · refine ⟨rfl, ⟨rfl, rfl⟩, rfl, ?_, rfl, rfl, rfl, rfl, rfl⟩
    rw [State.acceptStart_seq]
    cases s.mode <;> rfl

/-- Settles O50: an operation takes its exception, and a step refuses in one case only. -/
theorem everyOperationAnswersANextState : Obligations.EveryOperationAnswersANextState :=
  ⟨exec_answers_next, fun _ => step_answers_next, fun _ => step_refused⟩

end Sys2Proof.Machine

/-! ## The control word of an operation (30_encoding.md R102; log 1) -/

namespace Sys2Proof

theorem decode_encode (i : Instr) : decode (encode i) = .ok i := by
  simpa using decodeInvertsEncode i 0

/-- Settles O47: each word is the control word of its operation. -/
theorem controlWordsOfTheTableDecode : Obligations.ControlWordsOfTheTableDecode :=
  ⟨decode_encode .decodeBare, decode_encode .decodeEncap, decode_encode .curInit, decode_encode (.read 6),
    decode_encode (.read 300), decode_encode (.rdBe 8), decode_encode (.rdBe 4), decode_encode (.fhRdw 7),
    decode_encode .fhW0Invalid, decode_encode .decFhdr, decode_encode .ethDst, decode_encode .ipVersion,
    decode_encode .udpCsum, decode_encode .decEncap, decode_encode .smpRe, decode_encode .decPayload⟩

end Sys2Proof

/-! ## Text renderings (44_packet.md R216 to R218) -/

namespace Sys2Proof.Machine

/-- With fuel enough the digits are those of the library. -/
theorem digitsOf_eq_digits {b : Nat} (hb : 1 < b) {fuel v : Nat} (h : v < b ^ fuel) :
    digitsOf b fuel v = Nat.digits b v := by
  induction fuel generalizing v with
  | zero =>
    obtain rfl : v = 0 := by simpa using h
    rw [digitsOf, Nat.digits_zero]
  | succ fuel ih =>
    rw [digitsOf]
    split
    case isTrue hv => rw [hv, Nat.digits_zero]
    case isFalse hv =>
      rw [Nat.digits_eq_cons_digits_div hb hv, ih (Nat.div_lt_of_lt_mul (by rwa [pow_succ'] at h))]

theorem numberText_of_ne_zero {b v : Nat} (hb : 1 < b) (hv : v ≠ 0) :
    numberText b v = (Nat.digits b v).reverse.map hexDigit := by
  have fuel : v < b ^ (v.log2 + 1) := Nat.lt_log2_self.trans_le (Nat.pow_le_pow_left hb _)
  rw [numberText, if_neg hv, digitsOf_eq_digits hb fuel]

/-- The value of digits written most significant first. -/
theorem foldl_reverse_eq_ofDigits (b : Nat) (ds : List Nat) :
    ds.reverse.foldl (fun acc d => acc * b + d) 0 = Nat.ofDigits b ds := by
  rw [List.foldl_reverse, Nat.ofDigits_eq_foldr]
  simp only [Nat.cast_id, Nat.mul_comm b, Nat.add_comm]

/-- `ds` is the numeral of `v` in base `b`, most significant digit first, without leading zeros. -/
structure IsNumeral (b v : Nat) (ds : List Nat) : Prop where
  ne_nil : ds ≠ []
  lt_base : ∀ d ∈ ds, d < b
  value : ds.foldl (fun acc d => acc * b + d) 0 = v
  no_leading_zero : ds.head? = some 0 → ds = [0]

theorem isNumeral_zero {b : Nat} (hb : 1 < b) : IsNumeral b 0 [0] where
  ne_nil := List.cons_ne_nil 0 []
  lt_base d hd := by rw [List.mem_singleton.mp hd]; omega
  value := by simp
  no_leading_zero _ := rfl

theorem isNumeral_digits {b v : Nat} (hb : 1 < b) (hv : v ≠ 0) : IsNumeral b v (Nat.digits b v).reverse where
  ne_nil := List.reverse_ne_nil_iff.mpr (Nat.digits_ne_nil_iff_ne_zero.mpr hv)
  lt_base d hd := Nat.digits_lt_base hb (List.mem_reverse.mp hd)
  value := by rw [foldl_reverse_eq_ofDigits, Nat.ofDigits_digits]
  no_leading_zero h := by
    have hne : Nat.digits b v ≠ [] := Nat.digits_ne_nil_iff_ne_zero.mpr hv
    rw [List.head?_reverse, List.getLast?_eq_some_getLast hne, Option.some_inj] at h
    exact absurd h (Nat.getLast_digit_ne_zero b hv)

/-- A number is shown by its numeral. -/
theorem exists_numeral {b : Nat} (hb : 1 < b) (v : Nat) :
    ∃ ds, numberText b v = ds.map hexDigit ∧ IsNumeral b v ds := by
  by_cases hv : v = 0
  · subst hv
    exact ⟨[0], rfl, isNumeral_zero hb⟩
  · exact ⟨_, numberText_of_ne_zero hb hv, isNumeral_digits hb hv⟩

theorem hex2_nibbles {h l : Nat} (hh : h < 16) (hl : l < 16) : hex2 (16 * h + l) = [hexDigit h, hexDigit l] := by
  have high : (16 * h + l) / 16 % 16 = h := by omega
  have low : (16 * h + l) % 16 = l := by omega
  rw [hex2, high, low]

/-- The bytes of the value of as many bytes are those bytes again. -/
theorem beBytes_toNat_beBits {n : Nat} {bs : List Byte} (h : bs.length = n) :
    beBytes n (beBits (8 * n) bs).toNat = bs := by
  have bound : be bs < 256 ^ n := h ▸ be_lt bs
  have value : (beBits (8 * n) bs).toNat = be bs := by
    rw [beBits, BitVec.toNat_ofNat, pow_mul]
    exact Nat.mod_eq_of_lt bound
  exact be_inj (by rw [length_beBytes, h]) (by rw [be_beBytes, value, Nat.mod_eq_of_lt bound])

theorem macText_beBits (a b c d e f : Byte) :
    macText (beBits 48 [a, b, c, d, e, f]) =
      hex2 a.toNat ++ ':' :: hex2 b.toNat ++ ':' :: hex2 c.toNat ++ ':' :: hex2 d.toNat ++ ':' :: hex2 e.toNat ++
        ':' :: hex2 f.toNat := by
  have octets : beBytes 6 (beBits 48 [a, b, c, d, e, f]).toNat = [a, b, c, d, e, f] := beBytes_toNat_beBits rfl
  rw [macText, octets]
  simp

theorem ip4Text_beBits (a b c d : Byte) :
    ip4Text (beBits 32 [a, b, c, d]) =
      numberText 10 a.toNat ++ '.' :: numberText 10 b.toNat ++ '.' :: numberText 10 c.toNat ++
        '.' :: numberText 10 d.toNat := by
  have octets : beBytes 4 (beBits 32 [a, b, c, d]).toNat = [a, b, c, d] := beBytes_toNat_beBits rfl
  rw [ip4Text, octets]
  simp

/-- Settles O59: the numerals are the digits of the library, reversed. -/
theorem textsShowTheirValues : Obligations.TextsShowTheirValues := by
  refine ⟨by decide, fun h l => hex2_nibbles, fun v => ?_, fun v => ?_, macText_beBits, ip4Text_beBits⟩
  · obtain ⟨ds, text, ne_nil, lt_base, value, no_leading_zero⟩ := exists_numeral (b := 16) (by decide) v
    exact ⟨ds, by rw [hexText, text], ne_nil, lt_base, value, no_leading_zero⟩
  · obtain ⟨ds, text, ne_nil, lt_base, value, no_leading_zero⟩ := exists_numeral (b := 10) (by decide) v
    exact ⟨ds, text, ne_nil, lt_base, value, no_leading_zero⟩

end Sys2Proof.Machine

/-! ## The one exception, and the statuses (60_exceptions.md R231 to R237) -/

namespace Sys2Proof.Machine

/-- A read that raises the exception raises it before anything has changed (R231). -/
theorem Reads.eq_of_error {n : Nat} {a : State → Attempt} {f : State → State} (h : Reads n a f) {s t : State}
    (e : a s = .error t) : t = s := by
  by_cases hn : n ≤ s.len - s.off
  · rw [h.ok s hn] at e; cases e
  · rw [h.error s (by omega)] at e; cases e; rfl

/-- An operation of one read that lacks bytes takes the exception where it stands: by `Moves` it raises it, and a read
raises it in the state it was in. -/
theorem exec_of_lt_needs {i : Instr} {s : State} (hi : i.isComposite = false) (h : s.len - s.off < i.needs s.geom) :
    exec i s = .next s.takeTruncated := by
  obtain ⟨t, raised, -⟩ := (moves_of_not_composite hi).short s rfl h
  obtain ⟨n, f, read⟩ := isRead_of_not_composite hi
  obtain rfl : t = s := read.reads.eq_of_error raised
  rw [exec_eq_settle, raised, settle_error]

/-- Settles O19: none of the 18 consists of other operations. -/
theorem shortFieldReadTakesTheException : Obligations.ShortFieldReadTakesTheException := by
  intro s i hi
  have single : i.isComposite = false := by
    rcases hi with ⟨k, rfl⟩ | listed
    · rfl
    · revert listed i; decide
  exact exec_of_lt_needs single

/-- Settles O25: a stage runs at the cursor, and with too few bytes only the exception is left to it. -/
theorem shortStageExposesNothing : Obligations.ShortStageExposesNothing := by
  intro s i hi
  obtain ⟨h1, h2, h3⟩ : i ≠ .curInit ∧ i ≠ .decodeBare ∧ i ≠ .decodeEncap := by revert hi i; decide
  intro short
  obtain ⟨t, e⟩ := exec_answers_next i s
  rcases exec_atCursor h1 h2 h3 e with ⟨-, enough, -⟩ | ⟨-, -, -, failed⟩
  · exact absurd enough (Nat.not_le.mpr short)
  · exact ⟨t, e, failed⟩

/-- The statuses an operation can leave: the one there was, that of a commit, that of the exception (10_state.md R27). -/
theorem exec_status {i : Instr} {s t : State} (h : exec i s = .next t) :
    t.status = s.status ∨ t.status = .ok ∨ t.status = .errTruncated := by
  rcases instr_cases i with rfl | ⟨m, rfl⟩ | ⟨h1, h2, h3⟩
  · obtain rfl : { s with off := 0 } = t := by cases h; rfl
    exact .inl rfl
  · obtain ⟨-, -, ⟨u, -, rfl, -⟩ | ⟨truncated, -⟩⟩ := exec_command h
    · exact .inr (.inl (u.commit_status m))
    · exact .inr (.inr truncated)
  · rcases exec_atCursor h1 h2 h3 h with ⟨-, -, -, same, -⟩ | ⟨-, -, -, truncated, -⟩
    · exact .inl same
    · exact .inr (.inr truncated)

/-- A step leaves one more: that of an accepted start. -/
theorem step_status {s t : State} (h : step s = .next t) :
    t.status = s.status ∨ t.status = .idle ∨ t.status = .ok ∨ t.status = .errTruncated := by
  rcases step_cases h with ⟨-, rfl⟩ | ⟨-, rfl⟩ | ⟨i, rest, -, -, ran⟩
  · exact .inl rfl
  · exact .inr (.inl (State.acceptStart_status _))
  · exact (exec_status ran).imp_right .inr

/-- Settles O55: none of the statuses that are set is the reserved one. -/
theorem reservedStatusIsNeverProduced : Obligations.ReservedStatusIsNeverProduced := by
  refine ⟨fun s t i h reserved => ?_, fun s t h reserved => ?_⟩
  · have from_exec := exec_status h
    rw [reserved] at from_exec
    simpa [eq_comm] using from_exec
  · have from_step := step_status h
    rw [reserved] at from_step
    simpa [eq_comm] using from_step

end Sys2Proof.Machine

/-! ## A start after a reset (70_reset_and_hazards.md R260, 60_exceptions.md R242) -/

namespace Sys2Proof.Machine

/-- A reset keeps the host's inputs and the geometry, and all else it clears a start clears too, but the request and what
was still to run. -/
theorem beginTransaction_hostReset (s : State) :
    s.hostReset.beginTransaction = { s.beginTransaction with start := false, seq := [] } := rfl

/-- Where a start is accepted, a reset before it makes no difference to the state it begins in. -/
theorem started_eq_of_hostReset {s t u : State} (ht : s.hostReset.hostStart = .ok t) (hu : s.hostStart = .ok u) :
    t = u := by
  obtain ⟨-, -, rfl⟩ := hostStart_eq_ok.mp ht
  obtain ⟨hseq, -, rfl⟩ := hostStart_eq_ok.mp hu
  rw [beginTransaction_hostReset, ← hseq, ← State.beginTransaction_seq]

/-- Settles O2: both runs begin in the same state. -/
theorem resetThenStartRunsAsStartAlone : Obligations.ResetThenStartRunsAsStartAlone := by
  intro s t u ht hu
  rw [started_eq_of_hostReset ht hu]

end Sys2Proof.Machine
